-- ==== Sys2Proof/Word.lean ====
section
/-! DEFINITION. The plain number types of the model: what the manual treats as bits, and the names the manual uses for its
small natural numbers. -/

namespace Sys2Proof

/-- One byte of a host link or lane port frame. -/
abbrev Byte := BitVec 8

/-- A 16-bit field that wraps or is checked bit by bit: a cycle number, a round count, a frame check. -/
abbrev Half := BitVec 16

/-- A cell of the vital image: an unsigned 32-bit value (1.5 Conventions, "Cells and addresses"). Generations and
signatures, which are 32-bit fields on the wire, use it too. -/
abbrev Word := BitVec 32

/-- The value that stands for a faulted cell in a reply, 4294967295 (R11). -/
def faultedValue : Word := 0xFFFFFFFF#32

end Sys2Proof
end

