-- ==== Sys2Proof/Syntax.lean ====
section
/-! DEFINITION. The commands of the block: one constructor of `Instr` for each row of spec/opcode_table.json, with the
operands each row carries. A request row carries the bytes the host clocked in (tag, body and received check); a lane
frame row carries the bytes a port took; a row that reads the image store carries the upsets that have struck the store;
a row that ends an array operation carries what the area reads back as. -/

namespace Sys2Proof

/-- A lane port: port 1 faces the next lane, port 2 the previous one (1.5 "Lanes and ports"). -/
inductive PortId where
  | one
  | two
deriving DecidableEq, Repr, Inhabited

/-- A checkpoint slot of the retention array (R91). -/
inductive SlotId where
  | zero
  | one
deriving DecidableEq, Repr, Inhabited

/-- The damage a stored cell and its check code carry (R1): none, one bit position (correctable), or two bit positions
(uncorrectable). -/
inductive Damage where
  | intact
  | oneBit
  | twoBits
deriving DecidableEq, Repr, Inhabited

/-- A physical upset: the cell at address `cell` stands damaged as `damage` says when the grant reads it. -/
structure Upset where
  cell : Nat
  damage : Damage
deriving DecidableEq, Repr, Inhabited

/-- A complete host request after its kind byte (10.1): the host's tag, the body bytes (whose number is the declared body
length) and the check the host sent. -/
structure Request where
  tag : Byte
  body : List Byte
  check : Half
deriving DecidableEq, Repr, Inhabited

/-- A lane frame as a port received it whole (R168): the port, the sender lane byte, the body bytes (whose number is the
declared body length) and the check received. Its kind is the row's, or an operand of LANE_FRAME_FAULTY. -/
structure RxFrame where
  port : PortId
  lane : Byte
  body : List Byte
  check : Half
deriving DecidableEq, Repr, Inhabited

/-- A field of a header page place (R92): erased, holding a value that reads back whole, or damaged. -/
inductive Field (α : Type) where
  | erased
  | whole (a : α)
  | damaged
deriving DecidableEq, Repr, Inhabited

/-- The begin fields of a slot header: one field of three values (R92, R100). -/
structure BeginFields where
  generation : Word
  cycle : Half
  start : Nat
deriving DecidableEq, Repr, Inhabited

/-- What a page place of the array reads as (R92): erased, a record with its page number and cells, or a check failure. -/
inductive Place where
  | erased
  | record (page : Nat) (cells : List Word)
  | checkFailure
deriving DecidableEq, Repr, Inhabited

/-- One region entry of a commissioning record (R2, R161). -/
structure Region where
  number : Nat
  first : Nat
  last : Nat
  signed : Bool
  journalled : Bool
  checkpointed : Bool
  guarded : Bool
  autoRestore : Bool
deriving DecidableEq, Repr, Inhabited

/-- A set of the 21 fault kinds, kind code k at bit k - 1 (R167). -/
abbrev KindSet := BitVec 21

/-- The fields of a commissioning record apart from its check (R161), as stored; after clamping the same fields are the
record in use. -/
structure CommRecord where
  lane : Nat
  station : Nat
  voteWindow : Nat
  abstainLimit : Nat
  patrolBase : Nat
  decayPeriod : Nat
  highMark : Nat
  lowMark : Nat
  holdTime : Nat
  retryLimit : Nat
  alertMask : KindSet
  regions : List Region
deriving DecidableEq, Repr, Inhabited

/-- What the record's place in the commissioning sector reads as (R166 step 1). -/
inductive RecordPlace where
  | erased
  | record (r : CommRecord) (check : Half)
  | checkFailure
deriving DecidableEq, Repr, Inhabited

/-- What the commissioning sector holds after an erase that did not read back erased: the record's place, the lock mark, and
whether some other of its 16 places does not read as erased (R92). -/
structure CommLeft where
  record : RecordPlace
  lock : Field Unit
  others : Bool
deriving DecidableEq, Repr, Inhabited

/-- What a slot sector holds after an erase that did not read back erased: the 16 places of a data sector, or the three
fields of a header sector and whether some other of its places does not read as erased (R92). -/
inductive SectorLeft where
  | data (places : List Place)
  | header (begins : Field BeginFields) (completion abandon : Field Unit) (others : Bool)
deriving DecidableEq, Repr, Inhabited

/-- How one area of a sector whose erase was cut short reads (R93): erased, check failure, or as it was. -/
inductive EraseCut where
  | erased
  | bad
  | kept
deriving DecidableEq, Repr, Inhabited

/-- Where a reset or a loss of power finds the work in progress. `torn` says of each cell write of a write grant in
progress whether it had been made (R1, R20); `whole` says that the array operation in progress had in fact just ended
(R108); `cuts` says how each area of a sector whose erase was cut short reads (R93). `ups` are the upsets that have struck the
store by then, and `read` is a host read whose request, by its kind byte, was complete and whose grant the reset cuts
(R1, R37; log entry 31). -/
structure Cut where
  torn : List Bool
  whole : Bool
  cuts : List EraseCut
  ups : List Upset
  read : Option (Byte × Request)
deriving DecidableEq, Repr, Inhabited

/-- An area of the array that start-up reads: the record's place, the lock mark, or one header field of a slot. -/
inductive ArrayArea where
  | record
  | lock
  | begins (slot : SlotId)
  | completion (slot : SlotId)
  | abandon (slot : SlotId)
deriving DecidableEq, Repr, Inhabited

/-- The commands: one constructor for each row of spec/opcode_table.json, in the table's order. -/
inductive Instr where
  | powerOn
  | powerLoss (cut : Cut)
  | laneResetAssert (cut : Cut)
  | laneResetRelease
  | startUpComplete (lost : List ArrayArea)
  | hcsFalling
  | hcsRising
  | unknownKind (kind : Byte) (r : Request)
  | read (r : Request) (ups : List Upset)
  | readOn (r : Request) (ups : List Upset)
  | write (r : Request)
  | exchange (r : Request) (ups : List Upset)
  | heldExchangeRead (ups : List Upset)
  | fill (r : Request)
  | fillPage
  | drain
  | drainAge
  | close (r : Request)
  | signature (ups : List Upset)
  | cycleRecord (r : Request)
  | enter (r : Request)
  | queryWindowEnd
  | withdraw (r : Request)
  | restart (r : Request)
  | cancelCheckpoint (r : Request)
  | checkpointStatus (r : Request)
  | restorePage (r : Request)
  | pageRestoreReadDone (lost : Bool)
  | pageRestoreWrite
  | restoreImage (r : Request)
  | imageRestoreReadDone (lost : Bool)
  | imageRestoreWrite
  | join (r : Request)
  | faultFrame (r : Request)
  | releaseFault (r : Request)
  | faultSets (r : Request)
  | clearAccrued (r : Request)
  | setAlertMask (r : Request)
  | status (r : Request)
  | readCommissioning (r : Request)
  | writeCommissioning (r : Request)
  | commissioningEraseDone (left : Option CommLeft)
  | commissioningProgramDone (left : Option RecordPlace)
  | lockCommissioning (r : Request)
  | lockMarkProgrammed (left : Option (Field Unit))
  | apply (r : Request)
  | configure (r : Request)
  | patrolTimerExpiry
  | patrolVisit (ups : List Upset)
  | decayTimerExpiry
  | capture (ups : List Upset)
  | beginFieldsProgrammed (left : Option (Field BeginFields))
  | checkpointPageProgrammed (left : Option Place)
  | completionMarkProgrammed (left : Option (Field Unit))
  | abandonMarkProgrammed (left : Option (Field Unit))
  | preEraseSectorErased (left : Option SectorLeft)
  | transferOut (ups : List Upset)
  | transferIn
  | joinCheckGrant (ups : List Upset)
  | joinIdleTimeout
  | voteWindowExpiry
  | permitHalfPeriod
  | announce (f : RxFrame)
  | query (f : RxFrame)
  | state (f : RxFrame)
  | joinAsk (f : RxFrame)
  | joinGrant (f : RxFrame)
  | joinRefuse (f : RxFrame)
  | page (f : RxFrame)
  | pageAgain (f : RxFrame)
  | joinFinal (f : RxFrame)
  | joinAbort (f : RxFrame)
  | laneFrameFaulty (kind : Byte) (f : RxFrame)
  | laneCharTimeout (port : PortId)
  | portFrameSent (port : PortId)
  | markerInsideFrame (port : PortId)
  | replySentWhole
deriving DecidableEq, Repr

end Sys2Proof
end

