-- ==== Sys2Proof/Decode.lean ====
section
/-! DEFINITION. The command that a word spells by the table's bits. spec/opcode_table.json gives no row any bits: a command of this
block is a request frame, a lane frame or an event on a line, and not a word. -/

namespace Sys2Proof

/-- The rows of spec/opcode_table.json that give bits: how many bits the row has, the word they spell, and the command. There is
none. -/
def bitRows : List (Nat × Nat × Instr) := []

/-- The command a word spells: that of the row with those bits, and none where no row has them. -/
def decodeTableWord (nbits w : Nat) : Option Instr :=
  (bitRows.find? (fun r => r.1 == nbits && r.2.1 == w)).map (fun r => r.2.2)

end Sys2Proof
end

