-- ==== Sys2Proof/Config.lean ====
section
/-! DEFINITION. The fixed limits of the part (1.7 Capacities and Limits) and the FREE VALUES: constants with no body that
stand for what the manual leaves open, so that no proof can see them. -/

namespace Sys2Proof

namespace Config

/-- Pages of the image. -/
def pages : Nat := 256
/-- Cells of a page. -/
def pageCells : Nat := 64
/-- Entries and cells the write queue can hold (R20). -/
def queueEntries : Nat := 8
def queueCells : Nat := 64
/-- Journal records, and the mark at which JOURNAL_HIGH is raised (R33, R34). -/
def journalRecords : Nat := 1024
def journalHigh : Nat := 896
/-- The last sequence number a record can take (R28). -/
def lastSequence : Nat := 4294967295
/-- Cells the suspect list holds (R43). -/
def suspectCells : Nat := 32
/-- Records the cycle history holds (R61). -/
def historyRecords : Nat := 16
/-- Pages the restore list holds (R111). -/
def restoreListPages : Nat := 64
/-- Entries the capture buffer holds (R104). -/
def captureBuffer : Nat := 8
/-- Inbound PAGE frames a receiver holds (R132). -/
def inboundFrames : Nat := 4
/-- Pages a closing pass may send (R131), and the pass limit (R130). -/
def closingPages : Nat := 16
def passLimit : Nat := 8
/-- Votes in a row after which a silent peer is lost (R78). -/
def silentLimit : Nat := 3
/-- Host-side grants in a row that a waiting non-host request allows (R16). -/
def hostRun : Nat := 4
/-- Request body bytes the assembler keeps (R154, R155). -/
def bodyBytes : Nat := 256
/-- The largest fault pressure, and the three thresholds (R45, R49, R50, R51). -/
def pressureTop : Nat := 1023
def pressureHigh : Nat := 512
def pressureWithdraw : Nat := 768
def pressureAdmit : Nat := 384
/-- The modulus of the signature sums (R63). -/
def signatureModulus : Nat := 65519
/-- Parameters when no record is in use (R161). -/
def voteWindow : Nat := 40
def abstainLimit : Nat := 3
def patrolBase : Nat := 20
def decayPeriod : Nat := 10
def highMark : Nat := 4
def lowMark : Nat := 1
def holdTime : Nat := 5
def retryLimit : Nat := 4

/-- FREE VALUE: the value of a cell nothing has written since the `powerOns`-th power-on (R1: "Cell contents and check
codes are unknown after power-on"). -/
opaque unknownCell (powerOns addr : Nat) : Word

/-- FREE VALUE: how such a cell stands against its unknown check code (R1). -/
opaque unknownDamage (powerOns addr : Nat) : Damage

/-- FREE VALUE: the record check of a commissioning record (R161 says the part computes it over all other fields and does
not say how). -/
opaque recordCheck (r : CommRecord) : Half

/-- FREE VALUE: the generation that follows 4294967295 (R100 says "plus 1"; R95 gives the range 0..4294967295). The argument
counts the times it has been taken. -/
opaque generationAfterLast (count : Nat) : Word

/-- FREE VALUE: the code of the lane state a part takes from an ANNOUNCE or STATE whose state byte is none of the seven codes
of R167; what the frame's state then is, the manual does not say. -/
opaque undefinedStateCode (code : Byte) : Fin 8

end Config

end Sys2Proof
end

