-- ==== Sys2Proof/Machine/State.lean ====
section
/-! DEFINITION. Everything the manual gives the 3T64 to hold, as plain data; the reasons a step can stop; and the state
right after reset. Each structure names the rule that gives its fields. Values of the manual's small natural numbers are
`Nat`; what the manual treats as bits is a bit vector. -/

namespace Sys2Proof.Machine

/-- Where the part is between power-on and service (R160, R166): without power; in reset; in start-up; serving. -/
inductive PartPhase where
  | off
  | held
  | startUp
  | running
deriving DecidableEq, Repr, Inhabited

/-- The lane states (chapter 5), coded 0 to 6 in this order (R167). -/
inductive LaneState where
  | config
  | standby
  | forming
  | joining
  | active
  | excluded
  | halted
deriving DecidableEq, Repr, Inhabited

/-- The 21 fault kinds in the order of their codes (R167). -/
inductive FaultKind where
  | corrected
  | uncorrectable
  | suspectOverflow
  | restoreFailed
  | journalHigh
  | journalBroken
  | diverged
  | peerDiverged
  | noMajority
  | pairDisagree
  | alone
  | abstained
  | peerSilent
  | lateAnnounce
  | outOfStep
  | linkCheck
  | wiring
  | joinFailed
  | checkpointFailed
  | pressureHigh
  | selfWithdrawn
deriving DecidableEq, Repr, Inhabited

/-- The reasons of TRANSFER frames, JOIN-REFUSE and JOIN-ABORT in the order of their codes, and a code outside the table
taken as given (R167). -/
inductive Reason where
  | noCheckpoint
  | notCaptured
  | array
  | noJournal
  | listFull
  | programFault
  | eraseFault
  | sourceFault
  | journalFull
  | sequenceEnd
  | timeout
  | planMismatch
  | receiverBusy
  | receiverLeft
  | donorLeft
  | notActive
  | donorBusy
  | donorUnhealthy
  | linkFault
  | noConverge
  | receiverAbort
  | missingPages
  | mismatch
  | other (code : Byte)
deriving DecidableEq, Repr, Inhabited

/-- The reply statuses in the order of their codes (R167). -/
inductive Status where
  | ok
  | accepted
  | frameCheck
  | unknownKind
  | badLength
  | badField
  | starting
  | unmapped
  | span
  | pageUnset
  | pageBusy
  | guarded
  | queueFull
  | wrongState
  | cycleOrder
  | closePending
  | engineBusy
  | notRunning
  | noCheckpoint
  | noJournal
  | notNeeded
  | listFull
  | peerActive
  | pressure
  | noCursor
  | notFound
  | notHeld
  | locked
  | invalidConfig
deriving DecidableEq, Repr, Inhabited

/-- The 26 request kinds in the order of their codes 01h to 1Ah (R167). -/
inductive ReqKind where
  | read
  | readOn
  | write
  | exchange
  | fill
  | close
  | cycleRecord
  | enter
  | withdraw
  | restart
  | cancelCheckpoint
  | checkpointStatus
  | restorePage
  | restoreImage
  | join
  | faultFrame
  | releaseFault
  | faultSets
  | clearAccrued
  | setAlertMask
  | status
  | readCommissioning
  | writeCommissioning
  | lockCommissioning
  | apply
  | configure
deriving DecidableEq, Repr, Inhabited

/-- The failing rules of a commissioning record in the order of their codes (R162, 12.2). -/
inductive FailingRule where
  | noRecord
  | lane
  | station
  | regionCount
  | regionNumber
  | pageRange
  | overlap
  | attributes
  | noSigned
  | array
deriving DecidableEq, Repr, Inhabited

/-! ### Image store, page state table, arbiter (chapter 1) -/

/-- A stored cell: the value last written and the damage of the cell and its check code (R1). -/
structure StoredCell where
  value : Word
  damage : Damage
deriving DecidableEq, Repr, Inhabited

/-- The page states (R4). -/
inductive PageState where
  | unset
  | sound
  | suspect
  | restoring
  | stale
deriving DecidableEq, Repr, Inhabited

/-- A page record: the state and the four marks (R4). -/
structure PageRec where
  state : PageState
  dirty : Bool
  suspectAll : Bool
  uncaptured : Bool
  written : Bool
deriving DecidableEq, Repr, Inhabited

/-- The record of a page after power-on and after a lane reset (R4): UNSET with all four marks clear. -/
def PageRec.fresh : PageRec :=
  { state := .unset, dirty := false, suspectAll := false, uncaptured := false, written := false }

/-! ### Write queue and journal (chapter 2) -/

/-- A write queue entry (R18, R20). `age` is the age the entry is known to have reached, in units of 100 µs: DRAIN_AGE
raises it to the hold time T in use. -/
structure Entry where
  page : Nat
  offset : Nat
  values : List Word
  age : Nat
  closing : Bool
deriving DecidableEq, Repr, Inhabited

/-- The write queue (R20): the entries, oldest first, and whether a high-mark run is begun (R22). -/
structure Queue where
  entries : List Entry
  run : Bool
deriving DecidableEq, Repr, Inhabited

/-- The journal states (R29). -/
inductive JournalState where
  | recording
  | pendingBase
  | broken
deriving DecidableEq, Repr, Inhabited

/-- A journal record (R28). -/
structure JournalRecord where
  sequence : Nat
  page : Nat
  offset : Nat
  values : List Word
deriving DecidableEq, Repr, Inhabited

/-- The journal (R28, R29): state, records in sequence order, base slot by number and generation, next sequence number
(0 when none is left), and the noted start sequence of a checkpoint in flight. -/
structure Journal where
  state : JournalState
  records : List JournalRecord
  base : Option (SlotId × Option Word)
  next : Nat
  start : Option Nat
deriving DecidableEq, Repr, Inhabited

/-! ### Patrol and pressure (chapter 3) -/

/-- The patrol unit (3.1): cursor, round count, pace level, the visit timer with its running interval in units of 100 µs,
and whether its request waits at the arbiter (R38). -/
structure Patrol where
  cursor : Option Nat
  round : Half
  pace : Nat
  timer : Option Nat
  request : Bool
deriving DecidableEq, Repr, Inhabited

/-- The pressure unit (R45): P, and the decay timer with its running period in units of 100 ms. -/
structure Pressure where
  p : Nat
  timer : Option Nat
deriving DecidableEq, Repr, Inhabited

/-! ### Cycle close, signatures, lane agreement (chapters 4 and 5) -/

/-- One page of a signature pass: its region, the page, and whether it is the region's first or last page (R56). -/
structure SignStep where
  region : Nat
  page : Nat
  first : Bool
  last : Bool
deriving DecidableEq, Repr, Inhabited

/-- Why a signature computation stopped (R57 "Cause recorded"). -/
inductive StopCause where
  | unsignablePage
  | newUncorrectable
deriving DecidableEq, Repr, Inhabited

/-- The signature unit (4.4): the running pair, the region results (region number, a, b) in the order stored, the pages the
pass or join check has yet to sign, and the cause recorded at a stop, kept until the next computation begins (R57; log entry
52). -/
structure SignUnit where
  a : Nat
  b : Nat
  results : List (Nat × Nat × Nat)
  todo : List SignStep
  stop : Option StopCause := none
deriving DecidableEq, Repr, Inhabited

/-- How far a close has come (R54 to R60): closing entries draining; the signature pass running; the closing pass of a
donation holding step 4; steps 1 to 6 done. -/
inductive CloseStage where
  | draining
  | signing
  | closingPass
  | closed
deriving DecidableEq, Repr, Inhabited

/-- The vote of a close: not started (or never started), running, or decided or dropped (R54, R77). -/
inductive VoteStage where
  | notStarted
  | running
  | settled
deriving DecidableEq, Repr, Inhabited

/-- A close in progress (R54): its cycle, its option, its stage, its vote, and its own signature once computed. -/
structure Close where
  cycle : Half
  withCheckpoint : Bool
  stage : CloseStage
  vote : VoteStage
  signature : Option Word
deriving DecidableEq, Repr, Inhabited

/-- Vote outcomes in the order of their codes (R61, R167). -/
inductive VoteOutcome where
  | pending
  | agree
  | majority
  | diverged
  | noMajority
  | pairDisagree
  | alone
  | abstained
  | activePeerSeen
  | notVoted
deriving DecidableEq, Repr, Inhabited

/-- Arrivals in the order of their codes (R61, R167). -/
inductive Arrival where
  | awaited
  | onTime
  | late
  | missing
  | notExpected
deriving DecidableEq, Repr, Inhabited

/-- A peer entry of a cycle record (R61). -/
structure PeerNote where
  lane : Option Nat
  arrival : Arrival
  state : Option LaneState
  signature : Option Word
deriving DecidableEq, Repr, Inhabited

/-- A cycle record (R61): region signatures as (region number, signature) in ascending region number. -/
structure CycleRecord where
  cycle : Half
  own : LaneState
  signature : Option Word
  regions : Option (List (Nat × Word))
  peer1 : PeerNote
  peer2 : PeerNote
  outcome : VoteOutcome
  checkpoint : Bool
deriving DecidableEq, Repr, Inhabited

/-- An announcement held in a slot of a peer entry (R72). -/
structure Announcement where
  cycle : Half
  state : Option LaneState
  signature : Option Word
  abstain : Bool
deriving DecidableEq, Repr, Inhabited

/-- The relation field of a peer entry (R72). -/
inductive Relation where
  | none
  | donor
  | receiver
deriving DecidableEq, Repr, Inhabited

/-- A peer entry (R72). `known = none` is UNKNOWN. -/
structure Peer where
  lane : Option Nat
  known : Option LaneState
  heard : Option Half
  pressure : Nat
  donating : Bool
  pending : Option Announcement
  early : Option Announcement
  silent : Nat
  lost : Bool
  relation : Relation
deriving DecidableEq, Repr, Inhabited

/-- A peer entry as after power-on, with the lane expected on its port (R72). -/
def Peer.fresh (lane : Option Nat) : Peer :=
  { lane := lane, known := none, heard := none, pressure := 0, donating := false, pending := none, early := none,
    silent := 0, lost := false, relation := .none }

/-- The lane agreement unit (chapter 5): lane state, last closed cycle, the close in progress, the cycle history oldest
first, the vote window timer with its running time in ms, the abstain count, the permit mark, ENTER's query window (whether
a frame taken in it gave ACTIVE), and the two peer entries. -/
structure LaneUnit where
  state : LaneState
  lastClosed : Half
  close : Option Close
  history : List CycleRecord
  window : Option Nat
  abstain : Nat
  permitMark : Bool
  query : Option Bool
  peer1 : Peer
  peer2 : Peer
deriving DecidableEq, Repr, Inhabited

/-- A lane frame handed to a port (R168). -/
inductive LaneFrame where
  | announce (cycle : Half) (state : LaneState) (signature : Option Word) (abstain : Bool) (p : Nat) (donating : Bool)
  | query
  | state (state : LaneState) (lastClosed : Half)
  | joinAsk
  | joinGrant (pages : Nat)
  | joinRefuse (reason : Reason)
  | page (page : Nat) (pass : Nat) (cells : List Word)
  | pageAgain (page : Nat)
  | joinFinal (cycle : Half) (signature : Word)
  | joinAbort (reason : Reason)
deriving DecidableEq, Repr, Inhabited

/-- A lane frame at a port with the sender lane it carries (R168): the part's lane number when it was handed over (log entry
65). -/
structure Outgoing where
  lane : Nat
  frame : LaneFrame
deriving DecidableEq, Repr, Inhabited

/-- A lane port (R67, R69): the frame being sent, the two groups of waiting frames, oldest first, and whether the receive
side is known to be inside a frame whose marker MARKER_INSIDE_FRAME has shown. -/
structure Port where
  sending : Option Outgoing
  first : List Outgoing
  second : List Outgoing
  taking : Bool
deriving DecidableEq, Repr, Inhabited

/-- A port after power-on and after a lane reset (R67): idle, with nothing waiting. -/
def Port.fresh : Port := { sending := none, first := [], second := [], taking := false }

/-- The two lane ports. -/
structure Ports where
  one : Port
  two : Port
deriving DecidableEq, Repr, Inhabited

/-! ### Retention array, controller, checkpoint engine (chapter 6) -/

/-- One slot of the array: the three header fields and the page places, listed where they are not erased (R91, R92). -/
structure SlotStore where
  begins : Field BeginFields
  completion : Field Unit
  abandon : Field Unit
  places : List (Nat × Place)
deriving DecidableEq, Repr, Inhabited

/-- A slot all of whose sectors are erased. -/
def SlotStore.blank : SlotStore := { begins := .erased, completion := .erased, abandon := .erased, places := [] }

/-- The retention array (R91): the commissioning sector (record place and lock mark) and the two slots. -/
structure RetArray where
  record : RecordPlace
  lock : Field Unit
  slot0 : SlotStore
  slot1 : SlotStore
deriving DecidableEq, Repr, Inhabited

/-- Operations of the array controller (R93, R94). Sector 16 of a slot is its header sector. -/
inductive ArrayOp where
  | readPage (image : Bool) (slot : SlotId) (page : Nat)
  | readRecord
  | readLock
  | readHeader (slot : SlotId)
  | eraseCommissioning
  | programRecord (r : CommRecord)
  | programLock
  | programBegin (slot : SlotId) (fields : BeginFields)
  | programPage (slot : SlotId) (page : Nat) (cells : List Word)
  | programCompletion (slot : SlotId)
  | programAbandon (slot : SlotId)
  | eraseSector (slot : SlotId) (sector : Nat)
deriving DecidableEq, Repr, Inhabited

/-- The array controller (6.2): operation in progress, the suspended erase, and the operations waiting. -/
structure Controller where
  op : Option ArrayOp
  suspended : Option ArrayOp
  waiting : List ArrayOp
deriving DecidableEq, Repr, Inhabited

/-- The slot states in the order of their codes (R95). -/
inductive SlotState where
  | invalid
  | erasing
  | erased
  | writing
  | complete
deriving DecidableEq, Repr, Inhabited

/-- A slot's entry in the directory (R95). -/
structure SlotEntry where
  state : SlotState
  generation : Option Word
  cycle : Option Half
  start : Option Nat
deriving DecidableEq, Repr, Inhabited

/-- An INVALID slot with nothing noted, as the directory shows until the scan ends (R96). -/
def SlotEntry.unknown : SlotEntry := { state := .invalid, generation := none, cycle := none, start := none }

/-- The checkpoint engine states in the order of their codes (6.4). -/
inductive EngineState where
  | idle
  | erasing
  | capturing
  | finishing
deriving DecidableEq, Repr, Inhabited

/-- A capture buffer entry (R104); `forced` is its kind, FORCED or ORDERLY. -/
structure BufEntry where
  page : Nat
  cells : List Word
  forced : Bool
deriving DecidableEq, Repr, Inhabited

/-- The checkpoint engine (6.4): engine state, slot directory, highest generation seen, capture buffer, the snapshot's cycle
and start sequence, the two page counts, sectors erased, erase hold. `target` is the slot WRITING or ERASING, `begun` says
that the begin fields have been programmed, and `asked` that a program of the engine's snapshot is asked for or in
progress (R104: one at a time). -/
structure Checkpoint where
  state : EngineState
  slot0 : SlotEntry
  slot1 : SlotEntry
  highest : Word
  buffer : List BufEntry
  cycle : Option Half
  start : Option Nat
  captured : Nat
  toCapture : Nat
  erased : Nat
  hold : Bool
  target : SlotId
  begun : Bool
  asked : Bool
deriving DecidableEq, Repr, Inhabited

/-! ### Restore engine (chapter 7) -/

/-- An image restore in progress (R120): the noted slot, its generation and cycle, the replay decision, the pages still to
do (the first is the next page, whose record stands in `cells` once read), and the counts. -/
structure ImageRestore where
  slot : SlotId
  generation : Option Word
  cycle : Option Half
  replay : Bool
  todo : List Nat
  cells : Option (List Word)
  toDo : Nat
  done : Nat
  failed : Nat
  firstFailed : Option (Nat × Reason)
deriving DecidableEq, Repr, Inhabited

/-- The restore engine's current operation (chapter 7): none; a page restore, READING while `cells` is none and WRITING once
the record is kept; or an image restore. -/
inductive RestoreOp where
  | none
  | page (page : Nat) (slot : SlotId) (generation : Option Word) (cells : Option (List Word))
  | image (i : ImageRestore)
deriving DecidableEq, Repr, Inhabited

/-- The last image result (R122). -/
structure ImageResult where
  slot : SlotId
  generation : Option Word
  cycle : Option Half
  replay : Bool
  done : Nat
  failed : Nat
  firstFailed : Option (Nat × Reason)
deriving DecidableEq, Repr, Inhabited

/-- The restore engine (chapter 7). -/
structure Restore where
  list : List Nat
  op : RestoreOp
  last : Option ImageResult
deriving DecidableEq, Repr, Inhabited

/-! ### Transfer engine (chapter 8) -/

/-- The receiver's phases (8.1). -/
inductive RxPhase where
  | asking
  | receiving
  | checking
deriving DecidableEq, Repr, Inhabited

/-- The transfer engine's role (8.1). -/
inductive Role where
  | none
  | donor
  | receiver (phase : RxPhase)
deriving DecidableEq, Repr, Inhabited

/-- A PAGE frame taken and not yet written (R132). -/
structure InPage where
  page : Nat
  cells : List Word
deriving DecidableEq, Repr, Inhabited

/-- The transfer engine (8.1). `retry` lists the retry counts that are not 0; `checkBegun` says that the receiver's
signature computation of JOIN-FINAL runs (R135). -/
structure Transfer where
  role : Role
  partner : Option (Nat × PortId)
  pass : Nat
  plan : List Nat
  caughtUp : Bool
  closing : List Nat
  sent : List Nat
  resend : List Nat
  retry : List (Nat × Nat)
  confirmed : Bool
  received : List Nat
  inbound : List InPage
  final : Option (Half × Word)
  idle : Bool
  checkBegun : Bool
deriving DecidableEq, Repr, Inhabited

/-- The transfer engine with role none (R124). -/
def Transfer.fresh : Transfer :=
  { role := .none, partner := none, pass := 1, plan := [], caughtUp := false, closing := [], sent := [], resend := [],
    retry := [], confirmed := false, received := [], inbound := [], final := none, idle := false, checkBegun := false }

/-! ### Fault store (chapter 9) -/

/-- The operations a TRANSFER frame names, in the order of their codes (12.2). -/
inductive TransferOp where
  | checkpoint
  | pageRestore
  | imageRestore
  | donate
  | receive
deriving DecidableEq, Repr, Inhabited

/-- A fault frame of one of the five families (R146 to R148). -/
inductive FaultFrame where
  | access (kind : FaultKind) (request : ReqKind) (page : Nat) (offsets : List Nat) (cycle : Half)
  | patrol (kind : FaultKind) (page : Nat) (corrected : Nat) (offsets : List Nat) (round : Half)
  | closing (kind : FaultKind) (cycle : Half) (signature : Option Word) (peer1 peer2 : PeerNote) (outcome : VoteOutcome)
  | transfer (kind : FaultKind) (op : TransferOp) (page : Option Nat) (slot : Option SlotId) (retry : Nat)
      (reason : Reason)
  | link (kind : FaultKind) (port : PortId) (frame : Byte) (expected : Option Nat) (received : Option Byte)
deriving DecidableEq, Repr, Inhabited

/-- The fault store (9.2). -/
structure FaultStore where
  current : KindSet
  accrued : KindSet
  mask : KindSet
  primary : Option FaultFrame
  secondary : Option FaultFrame
  lost : Bool
  any : Bool
deriving DecidableEq, Repr, Inhabited

/-! ### Host link (chapter 10) -/

/-- The frame assembler's phases (R154). -/
inductive LinkPhase where
  | idle
  | receiving
  | working
  | replying
  | done
deriving DecidableEq, Repr, Inhabited

/-- The read cursor (R12): a cell address 0..16384 and the wrap group (0 for none) of the read that set it. -/
structure Cursor where
  addr : Nat
  wrap : Nat
deriving DecidableEq, Repr, Inhabited

/-- A request whose reply waits (R156): FILL, ENTER, EXCHANGE, WRITE COMMISSIONING and LOCK COMMISSIONING; and a READ,
READ ON or EXCHANGE whose host read grant the arbiter has yet to give (R16). A FILL keeps all pages of its region and those
it has yet to write; a read and an exchange keep the cycle open at the time of the request (R146). -/
inductive Job where
  | fill (tag : Byte) (value : Word) (pages todo : List Nat)
  | enter (tag : Byte)
  | exchange (tag : Byte) (page offset : Nat) (value : Word) (cycle : Half) (held : Bool) (ups : List Upset)
  | read (tag : Byte) (kind : ReqKind) (start count wrap : Nat) (cycle : Half) (ups : List Upset)
  | writeCommissioning (tag : Byte) (r : CommRecord)
  | lock (tag : Byte)
deriving DecidableEq, Repr, Inhabited

/-- The reply summary (R158). -/
structure Summary where
  state : LaneState
  alert : Bool
  frameHeld : Bool
  permit : Bool
  closing : Bool
  votePending : Bool
  checkpointRunning : Bool
  restoreRunning : Bool
  joinRunning : Bool
  stale : Bool
  occupancy : Nat
  pressure : Nat
deriving DecidableEq, Repr, Inhabited

/-- The body of CHECKPOINT STATUS (R109). -/
structure CheckpointView where
  state : EngineState
  active : Option SlotId
  slot0 : SlotEntry
  slot1 : SlotEntry
  captured : Nat
  toCapture : Nat
  occupancy : Nat
  erased : Nat
  hold : Bool
deriving DecidableEq, Repr, Inhabited

/-- The body of STATUS (R159). -/
structure StatusView where
  state : LaneState
  lastClosed : Half
  lane : Option Nat
  peer1 : Peer
  peer2 : Peer
  occupancy : Nat
  cells : Nat
  journal : JournalState
  records : Nat
  next : Nat
  suspects : Nat
  restoreList : Nat
  last : Option ImageResult
  role : Role
  partner : Option Nat
  pass : Nat
  pagesLeft : Nat
  received : Nat
  engine : EngineState
  p : Nat
deriving DecidableEq, Repr, Inhabited

/-- A reply body (12.2). -/
inductive ReplyBody where
  | empty
  | read (stale : Bool) (faulted : List Nat) (values : List Word)
  | exchange (old : Word) (faulted stale : Bool)
  | cycleRecord (r : CycleRecord)
  | failingPage (page : Nat)
  | failingRule (rule : FailingRule) (first second : Option Nat)
  | restoreImage (slot : SlotId) (generation : Option Word) (cycle : Option Half) (replay : Bool)
  | checkpointStatus (v : CheckpointView)
  | noFrame
  | clearFrame
  | faultFrame (secondary lost : Bool) (frame : FaultFrame)
  | faultSets (current accrued mask : KindSet) (lost any : Bool)
  | status (v : StatusView)
  | commissioning (stored : RecordPlace) (locked inUse : Bool)
deriving DecidableEq, Repr, Inhabited

/-- What the handling of a request answers, before the reply frame is built at the end of the event (R157). -/
structure Answer where
  kind : Byte
  tag : Byte
  status : Status
  body : ReplyBody
deriving DecidableEq, Repr, Inhabited

/-- A reply frame (R157). A STARTING reply has no summary: four zero bytes stand in its place (R158). -/
structure Reply where
  kind : Byte
  tag : Byte
  status : Status
  summary : Option Summary
  body : ReplyBody
deriving DecidableEq, Repr, Inhabited

/-- The host link interface (R154, R156): the HCS line, the assembler's phase, the reply being sent, the answer given in this
event (none between steps), the waiting request, whether the request in hand belongs to the open interval, a second
complete request held behind it with its kind byte, and the read cursor (R12). -/
structure Link where
  hcsLow : Bool
  phase : LinkPhase
  reply : Option Reply
  answer : Option Answer
  job : Option Job
  live : Bool
  second : Option (Byte × Request × List Upset)
  secondLive : Bool
  cursor : Option Cursor
deriving DecidableEq, Repr, Inhabited

/-! ### Commissioning unit (chapter 11) and output lines -/

/-- The commissioning unit (11.1): the stored record (erased is BLANK, a check failure DAMAGED), the lock state, and the
record in use after clamping. -/
structure Commissioning where
  stored : RecordPlace
  locked : Bool
  inUse : Option CommRecord
deriving DecidableEq, Repr, Inhabited

/-- The output lines (1.8): STARTED, ALERT asserted, PERMIT asserted, and the level of the PERMIT square wave (R90). -/
structure Pins where
  started : Bool
  alert : Bool
  permit : Bool
  permitHigh : Bool
deriving DecidableEq, Repr, Inhabited

/-- THE MODEL'S OWN: what the event in hand has still to do at its end; all clear between steps. `moved`: the lane state has
changed, so one STATE frame is owed (R70). `withdrawn`: SELF_WITHDRAWN was raised, so its CLOSING frame is owed (R147). -/
structure Notes where
  moved : Bool
  withdrawn : Bool
deriving DecidableEq, Repr, Inhabited

/-! ### The whole machine -/

/-- Everything the part holds. `lrst` is the LANE RESET input (true while asserted); `powerOns` and `free` are the model's own
counters for the free values; `pending` is the queue of commands that wait. -/
structure State where
  phase : PartPhase
  lrst : Bool
  powerOns : Nat
  free : Nat
  pending : List Instr
  image : List (Nat × Option StoredCell)
  pages : List (Nat × PageRec)
  hostGrants : Nat
  link : Link
  queue : Queue
  journal : Journal
  patrol : Patrol
  suspects : List Nat
  pressure : Pressure
  sign : SignUnit
  lane : LaneUnit
  ports : Ports
  array : RetArray
  ctl : Controller
  ckpt : Checkpoint
  rest : Restore
  xfer : Transfer
  faults : FaultStore
  comm : Commissioning
  pins : Pins
  notes : Notes
deriving DecidableEq, Repr

/-- Why a step can stop with a fault. There is no constructor: the manual gives every command its effect in every state, and
an upset, a damaged frame or an array fault is an event the part reports and goes on from. -/
inductive Fault where
deriving DecidableEq, Repr

/-- Why a step can be refused. -/
inductive Refusal where
  /-- A command that has no meaning in this model yet, by its mnemonic (safe). No arm of `exec` answers it. -/
  | notModelled (mnemonic : String)
deriving DecidableEq, Repr

/-- The values every block takes after power-on (sections "Values After Each Reset" of chapters 1 to 9, R154), with the array
of a part that has never been programmed. The lane state reads CONFIG, the lane number none and the alert mask all kinds
until start-up sets them. -/
def State.cold : State where
  phase := .off
  lrst := false
  powerOns := 0
  free := 0
  pending := []
  image := []
  pages := []
  hostGrants := 0
  link := { hcsLow := false, phase := .idle, reply := none, answer := none, job := none, live := false, second := none,
            secondLive := false, cursor := none }
  queue := { entries := [], run := false }
  journal := { state := .broken, records := [], base := none, next := 1, start := none }
  patrol := { cursor := none, round := 0, pace := 0, timer := none, request := false }
  suspects := []
  pressure := { p := 0, timer := none }
  sign := { a := 0, b := 0, results := [], todo := [] }
  lane := { state := .config, lastClosed := 0, close := none, history := [], window := none, abstain := 0,
            permitMark := false, query := none, peer1 := Peer.fresh none, peer2 := Peer.fresh none }
  ports := { one := Port.fresh, two := Port.fresh }
  array := { record := .erased, lock := .erased, slot0 := SlotStore.blank, slot1 := SlotStore.blank }
  ctl := { op := none, suspended := none, waiting := [] }
  ckpt := { state := .idle, slot0 := SlotEntry.unknown, slot1 := SlotEntry.unknown, highest := 0, buffer := [],
            cycle := none, start := none, captured := 0, toCapture := 0, erased := 0, hold := false, target := .zero,
            begun := false, asked := false }
  rest := { list := [], op := .none, last := none }
  xfer := Transfer.fresh
  faults := { current := 0, accrued := 0, mask := BitVec.allOnes 21, primary := none, secondary := none, lost := false,
              any := false }
  comm := { stored := .erased, locked := false, inUse := none }
  pins := { started := false, alert := false, permit := false, permitHigh := false }
  notes := { moved := false, withdrawn := false }

/-- The controller at the end of a reset (R166 steps 1 and 2): the start-up scan has asked for its four reads. -/
def Controller.scanning : Controller :=
  { op := some .readRecord, suspended := none, waiting := [.readLock, .readHeader .zero, .readHeader .one] }

/-- The machine right after its power-on reset has ended: the power-on values, with start-up begun (R166). -/
def State.reset : State := { State.cold with phase := .startUp, powerOns := 1, ctl := Controller.scanning }

end Sys2Proof.Machine
end

