-- ==== Sys2Proof/Machine/Operands.lean ====
section
/-! DEFINITION. Operand forms: byte order and the frame check (1.5), the codes of R167, the layouts of the request bodies, the
commissioning record, the reply bodies and the lane frames (chapter 12). Every function here only reads or writes bytes. -/

namespace Sys2Proof.Machine

/-! ### Byte order and the frame check -/

/-- Two bytes, most significant first (1.5 "Byte order"). -/
def half (hi lo : Byte) : Half := hi ++ lo

/-- Four bytes, most significant first. -/
def word (b3 b2 b1 b0 : Byte) : Word := b3 ++ b2 ++ b1 ++ b0

/-- A 16-bit field as sent. -/
def halfBytes (x : Half) : List Byte := [x.extractLsb' 8 8, x.extractLsb' 0 8]

/-- A 32-bit field as sent. -/
def wordBytes (x : Word) : List Byte :=
  [x.extractLsb' 24 8, x.extractLsb' 16 8, x.extractLsb' 8 8, x.extractLsb' 0 8]

/-- A small number sent in one byte, and in two bytes, and in four. -/
def byteOf (n : Nat) : Byte := BitVec.ofNat 8 n
def halfOf (n : Nat) : List Byte := halfBytes (BitVec.ofNat 16 n)
def wordOf (n : Nat) : List Byte := wordBytes (BitVec.ofNat 32 n)

/-- A flag at bit `n` of a byte (R167). -/
def flag (n : Nat) (b : Bool) : Byte := if b then BitVec.ofNat 8 (2 ^ n) else 0

/-- One bit into the frame check: generator x^16 + x^12 + x^5 + 1, bits taken most significant first (1.5 "Frame check"). -/
def crcBit (c : Half) (b : Bool) : Half :=
  if c.msb != b then (c <<< 1) ^^^ 0x1021#16 else c <<< 1

/-- One byte into the frame check, most significant bit first. -/
def crcByte (c : Half) (x : Byte) : Half :=
  [7, 6, 5, 4, 3, 2, 1, 0].foldl (fun c i => crcBit c (x.getLsbD i)) c

/-- The frame check of a run of bytes: initial value FFFFh, no final inversion (1.5 "Frame check"). -/
def frameCheck (bytes : List Byte) : Half := bytes.foldl crcByte 0xFFFF#16

/-! ### Codes (R167) -/

/-- Request codes 01h to 1Ah. -/
def ReqKind.code : ReqKind → Byte
  | .read => 1
  | .readOn => 2
  | .write => 3
  | .exchange => 4
  | .fill => 5
  | .close => 6
  | .cycleRecord => 7
  | .enter => 8
  | .withdraw => 9
  | .restart => 10
  | .cancelCheckpoint => 11
  | .checkpointStatus => 12
  | .restorePage => 13
  | .restoreImage => 14
  | .join => 15
  | .faultFrame => 16
  | .releaseFault => 17
  | .faultSets => 18
  | .clearAccrued => 19
  | .setAlertMask => 20
  | .status => 21
  | .readCommissioning => 22
  | .writeCommissioning => 23
  | .lockCommissioning => 24
  | .apply => 25
  | .configure => 26

/-- The request kind a code names, or none (R155 order 3). -/
def ReqKind.ofCode (b : Byte) : Option ReqKind :=
  match b.toNat with
  | 1 => some .read
  | 2 => some .readOn
  | 3 => some .write
  | 4 => some .exchange
  | 5 => some .fill
  | 6 => some .close
  | 7 => some .cycleRecord
  | 8 => some .enter
  | 9 => some .withdraw
  | 10 => some .restart
  | 11 => some .cancelCheckpoint
  | 12 => some .checkpointStatus
  | 13 => some .restorePage
  | 14 => some .restoreImage
  | 15 => some .join
  | 16 => some .faultFrame
  | 17 => some .releaseFault
  | 18 => some .faultSets
  | 19 => some .clearAccrued
  | 20 => some .setAlertMask
  | 21 => some .status
  | 22 => some .readCommissioning
  | 23 => some .writeCommissioning
  | 24 => some .lockCommissioning
  | 25 => some .apply
  | 26 => some .configure
  | _ => none

/-- Status codes 00h to 1Ch. -/
def Status.code : Status → Byte
  | .ok => 0
  | .accepted => 1
  | .frameCheck => 2
  | .unknownKind => 3
  | .badLength => 4
  | .badField => 5
  | .starting => 6
  | .unmapped => 7
  | .span => 8
  | .pageUnset => 9
  | .pageBusy => 10
  | .guarded => 11
  | .queueFull => 12
  | .wrongState => 13
  | .cycleOrder => 14
  | .closePending => 15
  | .engineBusy => 16
  | .notRunning => 17
  | .noCheckpoint => 18
  | .noJournal => 19
  | .notNeeded => 20
  | .listFull => 21
  | .peerActive => 22
  | .pressure => 23
  | .noCursor => 24
  | .notFound => 25
  | .notHeld => 26
  | .locked => 27
  | .invalidConfig => 28

/-- Lane state codes 0 to 6. -/
def LaneState.code : LaneState → Byte
  | .config => 0
  | .standby => 1
  | .forming => 2
  | .joining => 3
  | .active => 4
  | .excluded => 5
  | .halted => 6

/-- The lane state a code names (a peer entry's UNKNOWN, code 7, is `none`). -/
def laneStateOfNat (n : Nat) : Option LaneState :=
  match n with
  | 0 => some .config
  | 1 => some .standby
  | 2 => some .forming
  | 3 => some .joining
  | 4 => some .active
  | 5 => some .excluded
  | 6 => some .halted
  | _ => none

/-- The lane state an ANNOUNCE or STATE gives: the state of its code, and for a code R167 does not define the FREE VALUE
`Config.undefinedStateCode` (log entry 7). -/
def laneStateOfByte (b : Byte) : Option LaneState :=
  if b.toNat < 7 then laneStateOfNat b.toNat else laneStateOfNat (Config.undefinedStateCode b).val

/-- The code of a peer's last known state, UNKNOWN coded 7. -/
def knownCode : Option LaneState → Byte
  | none => 7
  | some x => x.code

/-- Fault kind codes 1 to 21. -/
def FaultKind.code : FaultKind → Nat
  | .corrected => 1
  | .uncorrectable => 2
  | .suspectOverflow => 3
  | .restoreFailed => 4
  | .journalHigh => 5
  | .journalBroken => 6
  | .diverged => 7
  | .peerDiverged => 8
  | .noMajority => 9
  | .pairDisagree => 10
  | .alone => 11
  | .abstained => 12
  | .peerSilent => 13
  | .lateAnnounce => 14
  | .outOfStep => 15
  | .linkCheck => 16
  | .wiring => 17
  | .joinFailed => 18
  | .checkpointFailed => 19
  | .pressureHigh => 20
  | .selfWithdrawn => 21

/-- The fault kind a code names, or none. -/
def FaultKind.ofCode (n : Nat) : Option FaultKind :=
  match n with
  | 1 => some .corrected
  | 2 => some .uncorrectable
  | 3 => some .suspectOverflow
  | 4 => some .restoreFailed
  | 5 => some .journalHigh
  | 6 => some .journalBroken
  | 7 => some .diverged
  | 8 => some .peerDiverged
  | 9 => some .noMajority
  | 10 => some .pairDisagree
  | 11 => some .alone
  | 12 => some .abstained
  | 13 => some .peerSilent
  | 14 => some .lateAnnounce
  | 15 => some .outOfStep
  | 16 => some .linkCheck
  | 17 => some .wiring
  | 18 => some .joinFailed
  | 19 => some .checkpointFailed
  | 20 => some .pressureHigh
  | 21 => some .selfWithdrawn
  | _ => none

/-- Vote outcome codes 0 to 9. -/
def VoteOutcome.code : VoteOutcome → Byte
  | .pending => 0
  | .agree => 1
  | .majority => 2
  | .diverged => 3
  | .noMajority => 4
  | .pairDisagree => 5
  | .alone => 6
  | .abstained => 7
  | .activePeerSeen => 8
  | .notVoted => 9

/-- Arrival codes 0 to 4. -/
def Arrival.code : Arrival → Byte
  | .awaited => 0
  | .onTime => 1
  | .late => 2
  | .missing => 3
  | .notExpected => 4

/-- Reason codes from 1, and a code outside the table as given. -/
def Reason.code : Reason → Byte
  | .noCheckpoint => 1
  | .notCaptured => 2
  | .array => 3
  | .noJournal => 4
  | .listFull => 5
  | .programFault => 6
  | .eraseFault => 7
  | .sourceFault => 8
  | .journalFull => 9
  | .sequenceEnd => 10
  | .timeout => 11
  | .planMismatch => 12
  | .receiverBusy => 13
  | .receiverLeft => 14
  | .donorLeft => 15
  | .notActive => 16
  | .donorBusy => 17
  | .donorUnhealthy => 18
  | .linkFault => 19
  | .noConverge => 20
  | .receiverAbort => 21
  | .missingPages => 22
  | .mismatch => 23
  | .other c => c

/-- The reason a JOIN-ABORT or JOIN-REFUSE gives; a code outside the table is taken as given (R167). -/
def Reason.ofCode (b : Byte) : Reason :=
  match b.toNat with
  | 1 => .noCheckpoint
  | 2 => .notCaptured
  | 3 => .array
  | 4 => .noJournal
  | 5 => .listFull
  | 6 => .programFault
  | 7 => .eraseFault
  | 8 => .sourceFault
  | 9 => .journalFull
  | 10 => .sequenceEnd
  | 11 => .timeout
  | 12 => .planMismatch
  | 13 => .receiverBusy
  | 14 => .receiverLeft
  | 15 => .donorLeft
  | 16 => .notActive
  | 17 => .donorBusy
  | 18 => .donorUnhealthy
  | 19 => .linkFault
  | 20 => .noConverge
  | 21 => .receiverAbort
  | 22 => .missingPages
  | 23 => .mismatch
  | _ => .other b

/-- Failing rule codes 1 to 10 (12.2). -/
def FailingRule.code : FailingRule → Byte
  | .noRecord => 1
  | .lane => 2
  | .station => 3
  | .regionCount => 4
  | .regionNumber => 5
  | .pageRange => 6
  | .overlap => 7
  | .attributes => 8
  | .noSigned => 9
  | .array => 10

/-- Checkpoint engine state codes, slot state codes, journal state codes, TRANSFER operation codes (12.2). -/
def EngineState.code : EngineState → Byte
  | .idle => 0
  | .erasing => 1
  | .capturing => 2
  | .finishing => 3

def SlotState.code : SlotState → Byte
  | .invalid => 0
  | .erasing => 1
  | .erased => 2
  | .writing => 3
  | .complete => 4

def JournalState.code : JournalState → Byte
  | .recording => 0
  | .pendingBase => 1
  | .broken => 2

def TransferOp.code : TransferOp → Byte
  | .checkpoint => 1
  | .pageRestore => 2
  | .imageRestore => 3
  | .donate => 4
  | .receive => 5

/-- Role codes, and the phase byte (0 when not a receiver) (12.2). -/
def Role.code : Role → Byte
  | .none => 0
  | .donor => 1
  | .receiver _ => 2

def Role.phaseCode : Role → Byte
  | .none => 0
  | .donor => 0
  | .receiver .asking => 1
  | .receiver .receiving => 2
  | .receiver .checking => 3

/-- A slot's number, and a port's. -/
def slotNumber : SlotId → Nat
  | .zero => 0
  | .one => 1

def portNumber : PortId → Nat
  | .one => 1
  | .two => 2

/-- Lane frame kind codes 1 to 10 (R168). -/
def LaneFrame.code : LaneFrame → Byte
  | .announce .. => 1
  | .query => 2
  | .state .. => 3
  | .joinAsk => 4
  | .joinGrant _ => 5
  | .joinRefuse _ => 6
  | .page .. => 7
  | .pageAgain _ => 8
  | .joinFinal .. => 9
  | .joinAbort _ => 10

/-- The body length R168 requires of a lane frame kind, or none for a code that is no kind. -/
def laneBodyLength (code : Byte) : Option Nat :=
  match code.toNat with
  | 1 => some 10
  | 2 => some 0
  | 3 => some 3
  | 4 => some 0
  | 5 => some 2
  | 6 => some 1
  | 7 => some 258
  | 8 => some 1
  | 9 => some 6
  | 10 => some 1
  | _ => none

/-! ### Sets of fault kinds (R167) -/

/-- The set of one kind: kind code k occupies bit k - 1. -/
def FaultKind.bit (k : FaultKind) : KindSet := BitVec.ofNat 21 (2 ^ (k.code - 1))

/-- Whether a set holds a kind. -/
def kindIn (k : FaultKind) (x : KindSet) : Bool := x.getLsbD (k.code - 1)

/-- A fault set as sent in three bytes; bits 21 to 23 are sent 0. -/
def kindSetBytes (x : KindSet) : List Byte :=
  let y : BitVec 24 := x.setWidth 24
  [y.extractLsb' 16 8, y.extractLsb' 8 8, y.extractLsb' 0 8]

/-- A fault set as taken from three bytes; bits 21 to 23 are ignored. -/
def kindSetOfBytes (b2 b1 b0 : Byte) : KindSet := (b2 ++ b1 ++ b0 : BitVec 24).setWidth 21

/-- The set that a list of kind codes names, or none if a code is no kind (R144). -/
def kindSetOfCodes : List Byte → Option KindSet
  | [] => some 0
  | b :: rest =>
    match FaultKind.ofCode b.toNat, kindSetOfCodes rest with
    | some k, some x => some (x ||| k.bit)
    | _, _ => none

/-! ### Request bodies (12.2) -/

/-- A run of four-byte values, when the bytes divide into whole ones. -/
def wordsOfBytes : List Byte → Option (List Word)
  | [] => some []
  | b3 :: b2 :: b1 :: b0 :: rest =>
    match wordsOfBytes rest with
    | some ws => some (word b3 b2 b1 b0 :: ws)
    | none => none
  | _ => none

/-- The values as sent. -/
def bytesOfWords : List Word → List Byte
  | [] => []
  | w :: ws => wordBytes w ++ bytesOfWords ws

/-- READ: page, offset, count, wrap. -/
structure ReadArgs where
  page : Nat
  offset : Nat
  count : Nat
  wrap : Nat
deriving DecidableEq, Repr

def readArgs : List Byte → Option ReadArgs
  | [p, o, c, w] => some { page := p.toNat, offset := o.toNat, count := c.toNat, wrap := w.toNat }
  | _ => none

/-- A request whose body is one byte: READ ON (count), RESTORE PAGE (page), JOIN (donor lane). -/
def oneByte : List Byte → Option Nat
  | [b] => some b.toNat
  | _ => none

/-- WRITE: page, offset, values. -/
structure WriteArgs where
  page : Nat
  offset : Nat
  values : List Word
deriving DecidableEq, Repr

def writeArgs : List Byte → Option WriteArgs
  | p :: o :: rest =>
    match wordsOfBytes rest with
    | some vs => some { page := p.toNat, offset := o.toNat, values := vs }
    | none => none
  | _ => none

/-- EXCHANGE: page, offset, new value; taken as a WRITE of one value (R19). -/
def exchangeArgs : List Byte → Option WriteArgs
  | [p, o, b3, b2, b1, b0] => some { page := p.toNat, offset := o.toNat, values := [word b3 b2 b1 b0] }
  | _ => none

/-- FILL: region, value. -/
def fillArgs : List Byte → Option (Nat × Word)
  | [r, b3, b2, b1, b0] => some (r.toNat, word b3 b2 b1 b0)
  | _ => none

/-- CLOSE: cycle, option. -/
def closeArgs : List Byte → Option (Half × Nat)
  | [c1, c0, o] => some (half c1 c0, o.toNat)
  | _ => none

/-- CYCLE RECORD: empty for "latest" (`some none`), or a cycle. -/
def cycleRecordArgs : List Byte → Option (Option Half)
  | [] => some none
  | [c1, c0] => some (some (half c1 c0))
  | _ => none

/-- One region entry: region number, first page, last page, attributes (bit 0 signed, 1 journalled, 2 checkpointed, 3
write-guarded, 4 auto-restore). -/
def regionOfBytes (n f l a : Byte) : Region :=
  { number := n.toNat, first := f.toNat, last := l.toNat, signed := a.getLsbD 0, journalled := a.getLsbD 1,
    checkpointed := a.getLsbD 2, guarded := a.getLsbD 3, autoRestore := a.getLsbD 4 }

def regionsOfBytes : List Byte → Option (List Region)
  | [] => some []
  | n :: f :: l :: a :: rest =>
    match regionsOfBytes rest with
    | some rs => some (regionOfBytes n f l a :: rs)
    | none => none
  | _ => none

/-- WRITE COMMISSIONING: the record apart from its check. The number of entries must be the region count the body gives (log
entry 23). -/
def commissioningArgs : List Byte → Option CommRecord
  | lane :: s1 :: s0 :: vw :: al :: pb :: dp :: hm :: lm :: ht :: rl :: m2 :: m1 :: m0 :: c :: rest =>
    match regionsOfBytes rest with
    | some rs =>
      if rs.length = c.toNat then
        some { lane := lane.toNat, station := (half s1 s0).toNat, voteWindow := vw.toNat, abstainLimit := al.toNat,
               patrolBase := pb.toNat, decayPeriod := dp.toNat, highMark := hm.toNat, lowMark := lm.toNat,
               holdTime := ht.toNat, retryLimit := rl.toNat, alertMask := kindSetOfBytes m2 m1 m0, regions := rs }
      else none
    | none => none
  | _ => none

/-- Whether a body has a length its kind's layout can take (R155 order 4): the exact length for a fixed body, whole list
items after the fixed fields for a varying one. -/
def ReqKind.fits (k : ReqKind) (body : List Byte) : Bool :=
  match k with
  | .read => body.length == 4
  | .readOn | .restorePage | .join => body.length == 1
  | .write => decide (2 ≤ body.length) && (body.length - 2) % 4 == 0
  | .exchange => body.length == 6
  | .fill => body.length == 5
  | .close => body.length == 3
  | .cycleRecord => body.length == 0 || body.length == 2
  | .setAlertMask => true
  | .writeCommissioning => decide (15 ≤ body.length) && (body.length - 15) % 4 == 0
  | .enter | .withdraw | .restart | .cancelCheckpoint | .checkpointStatus | .restoreImage | .faultFrame | .releaseFault
  | .faultSets | .clearAccrued | .status | .readCommissioning | .lockCommissioning | .apply | .configure =>
    body.length == 0

/-- The bytes a request's check covers: kind, tag, body length and body (10.1). -/
def requestChecked (k : Byte) (r : Request) : List Byte := k :: r.tag :: (halfOf r.body.length ++ r.body)

/-- Whether the check received is the check of the bytes received (R155 order 1). -/
def requestSound (k : Byte) (r : Request) : Bool := r.check == frameCheck (requestChecked k r)

/-- A request as a host sends it: the check computed over its bytes. -/
def makeRequest (k : ReqKind) (tag : Byte) (body : List Byte) : Request :=
  { tag := tag, body := body, check := frameCheck (k.code :: tag :: (halfOf body.length ++ body)) }

/-! ### Reply frames (10.1, 12.2) -/

/-- An optional small number in one byte, FFh when absent; and the flag-marked two- and four-byte forms, 0 when absent. -/
def optByte : Option Nat → Byte
  | none => 0xFF
  | some n => byteOf n

def optHalf : Option Half → List Byte
  | none => halfOf 0
  | some x => halfBytes x

def optWord : Option Word → List Byte
  | none => wordOf 0
  | some x => wordBytes x

/-- A lane number, 0 for none. -/
def laneByte : Option Nat → Byte
  | none => 0
  | some n => byteOf n

/-- The reply summary's four bytes. -/
def Summary.bytes (x : Summary) : List Byte :=
  [ x.state.code,
    flag 7 x.alert ||| flag 6 x.frameHeld ||| flag 5 x.permit ||| flag 4 x.closing ||| flag 3 x.votePending |||
      flag 2 x.checkpointRunning ||| flag 1 x.restoreRunning ||| flag 0 x.joinRunning,
    (byteOf x.occupancy <<< 4) ||| flag 0 x.stale,
    byteOf x.pressure ]

/-- A peer entry of a cycle record or CLOSING frame: eight bytes. -/
def PeerNote.bytes (n : PeerNote) : List Byte :=
  [laneByte n.lane, n.arrival.code, flag 0 n.state.isSome ||| flag 1 n.signature.isSome,
   match n.state with
   | none => 0
   | some x => x.code] ++ optWord n.signature

/-- A cycle record. -/
def CycleRecord.bytes (r : CycleRecord) : List Byte :=
  halfBytes r.cycle ++ [r.own.code, flag 0 r.signature.isSome] ++ optWord r.signature ++
    (match r.regions with
     | none => [0]
     | some rs => byteOf rs.length :: rs.flatMap (fun x => byteOf x.1 :: wordBytes x.2)) ++
    r.peer1.bytes ++ r.peer2.bytes ++ [r.outcome.code, flag 0 r.checkpoint]

/-- A slot entry of CHECKPOINT STATUS: eight bytes. -/
def SlotEntry.bytes (e : SlotEntry) : List Byte :=
  [e.state.code, flag 0 e.generation.isSome ||| flag 1 e.cycle.isSome] ++ optWord e.generation ++ optHalf e.cycle

/-- A status peer entry: eight bytes. -/
def Peer.bytes (p : Peer) : List Byte :=
  [laneByte p.lane, knownCode p.known, flag 0 p.heard.isSome ||| flag 1 p.donating ||| flag 2 p.lost] ++
    optHalf p.heard ++ halfOf p.pressure ++ [byteOf p.silent]

/-- The last image result: fourteen bytes, every byte 0 with no result. -/
def imageResultBytes : Option ImageResult → List Byte
  | none => List.replicate 14 0
  | some r =>
    [flag 0 true ||| flag 1 r.replay ||| flag 2 r.firstFailed.isSome, byteOf (slotNumber r.slot)] ++
      optWord r.generation ++ optHalf r.cycle ++ halfOf r.done ++ halfOf r.failed ++
      (match r.firstFailed with
       | none => [0xFF, 0]
       | some (p, why) => [byteOf p, why.code])

/-- The family, kind and fields of a fault frame. -/
def FaultFrame.bytes : FaultFrame → List Byte
  | .access k q p offs c =>
    [1, byteOf k.code, q.code, byteOf p] ++ halfBytes c ++ (byteOf offs.length :: offs.map byteOf)
  | .patrol k p n offs r =>
    [2, byteOf k.code, byteOf p, byteOf n] ++ halfBytes r ++ (byteOf offs.length :: offs.map byteOf)
  | .closing k c g n1 n2 o =>
    [3, byteOf k.code] ++ halfBytes c ++ [flag 0 g.isSome] ++ optWord g ++ n1.bytes ++ n2.bytes ++ [o.code]
  | .transfer k op p sl n why =>
    [4, byteOf k.code, op.code, flag 0 p.isSome ||| flag 1 sl.isSome, optByte p, optByte (sl.map slotNumber), byteOf n,
     why.code]
  | .link k p f e r =>
    [5, byteOf k.code, byteOf (portNumber p), flag 0 true ||| flag 1 r.isSome, f, laneByte e, r.getD 0xFF]

/-- A commissioning record as WRITE COMMISSIONING sends it. -/
def regionBytes (r : Region) : List Byte :=
  [byteOf r.number, byteOf r.first, byteOf r.last,
   flag 0 r.signed ||| flag 1 r.journalled ||| flag 2 r.checkpointed ||| flag 3 r.guarded ||| flag 4 r.autoRestore]

def commRecordBytes (r : CommRecord) : List Byte :=
  [byteOf r.lane] ++ halfOf r.station ++
    [byteOf r.voteWindow, byteOf r.abstainLimit, byteOf r.patrolBase, byteOf r.decayPeriod, byteOf r.highMark,
     byteOf r.lowMark, byteOf r.holdTime, byteOf r.retryLimit] ++ kindSetBytes r.alertMask ++
    (byteOf r.regions.length :: r.regions.flatMap regionBytes)

/-- A reply body. -/
def ReplyBody.bytes : ReplyBody → List Byte
  | .empty => []
  | .read stale faulted values =>
    [byteOf values.length, flag 0 stale, byteOf faulted.length] ++ faulted.map byteOf ++ bytesOfWords values
  | .exchange old faulted stale => wordBytes old ++ [flag 0 faulted ||| flag 1 stale]
  | .cycleRecord r => r.bytes
  | .failingPage p => [byteOf p]
  | .failingRule k a b => [k.code, optByte a, optByte b]
  | .restoreImage sl g m replay => [byteOf (slotNumber sl)] ++ optWord g ++ optHalf m ++ [flag 0 replay]
  | .checkpointStatus v =>
    [v.state.code, optByte (v.active.map slotNumber)] ++ v.slot0.bytes ++ v.slot1.bytes ++ halfOf v.captured ++
      halfOf v.toCapture ++ [byteOf v.occupancy, byteOf v.erased, flag 0 v.hold]
  | .noFrame => [0]
  | .clearFrame => [1]
  | .faultFrame secondary lost f => [2, flag 0 secondary ||| flag 1 lost] ++ f.bytes
  | .faultSets c a m lost any =>
    kindSetBytes c ++ kindSetBytes a ++ kindSetBytes m ++ [flag 0 lost ||| flag 1 any]
  | .status v =>
    [v.state.code] ++ halfBytes v.lastClosed ++ [laneByte v.lane] ++ v.peer1.bytes ++ v.peer2.bytes ++
      [byteOf v.occupancy, byteOf v.cells, v.journal.code] ++ halfOf v.records ++ wordOf v.next ++
      [byteOf v.suspects, byteOf v.restoreList] ++ imageResultBytes v.last ++
      [v.role.code, laneByte v.partner, v.role.phaseCode, byteOf v.pass] ++ halfOf v.pagesLeft ++ halfOf v.received ++
      [v.engine.code] ++ halfOf v.p
  | .commissioning stored locked inUse =>
    match stored with
    | .erased => [0, flag 0 locked ||| flag 1 inUse]
    | .checkFailure => [1, flag 0 locked ||| flag 1 inUse]
    | .record r check => [2, flag 0 locked ||| flag 1 inUse] ++ commRecordBytes r ++ halfBytes check

/-- A whole reply frame: marker A5h, kind echo, tag echo, status, summary (four zero bytes for STARTING), body length,
body, check (10.1, R157, R158). -/
def Reply.bytes (r : Reply) : List Byte :=
  let body := r.body.bytes
  let checked := [r.kind, r.tag, r.status.code] ++
    (match r.summary with
     | none => [0, 0, 0, 0]
     | some x => x.bytes) ++ halfOf body.length ++ body
  0xA5 :: (checked ++ halfBytes (frameCheck checked))

/-! ### Lane frames (R168) -/

/-- A lane frame's body. -/
def LaneFrame.body : LaneFrame → List Byte
  | .announce c st sig ab p d =>
    halfBytes c ++ [st.code, flag 0 sig.isSome ||| flag 1 ab ||| flag 2 d] ++ optWord sig ++ halfOf p
  | .query => []
  | .state st c => [st.code] ++ halfBytes c
  | .joinAsk => []
  | .joinGrant n => halfOf n
  | .joinRefuse why => [why.code]
  | .page p n cells => [byteOf p, byteOf n] ++ bytesOfWords cells
  | .pageAgain p => [byteOf p]
  | .joinFinal c g => halfBytes c ++ wordBytes g
  | .joinAbort why => [why.code]

/-- The bytes a lane frame's check covers: lane, kind, length and body. -/
def laneChecked (lane kind : Byte) (body : List Byte) : List Byte := lane :: kind :: (halfOf body.length ++ body)

/-- The bytes of a lane frame after its marker, with the sender lane it carries. -/
def Outgoing.bytes (f : Outgoing) : List Byte :=
  let checked := laneChecked (byteOf f.lane) f.frame.code f.frame.body
  checked ++ halfBytes (frameCheck checked)

/-- A lane frame as the part of lane `lane` sends it and a port takes it. -/
def LaneFrame.received (port : PortId) (lane : Nat) (f : LaneFrame) : RxFrame :=
  { port := port, lane := byteOf lane, body := f.body,
    check := frameCheck (laneChecked (byteOf lane) f.code f.body) }

/-- The fields of an ANNOUNCE body; one whose signature-present bit is clear carries no signature (R168). The two pressure
bytes are taken as given (log entry 47). -/
structure AnnounceArgs where
  note : Announcement
  p : Nat
  donating : Bool
deriving DecidableEq, Repr

def announceArgs : List Byte → Option AnnounceArgs
  | [c1, c0, st, fl, g3, g2, g1, g0, p1, p0] =>
    some { note := { cycle := half c1 c0, state := laneStateOfByte st,
                     signature := if fl.getLsbD 0 then some (word g3 g2 g1 g0) else none, abstain := fl.getLsbD 1 },
           p := (half p1 p0).toNat, donating := fl.getLsbD 2 }
  | _ => none

/-- The fields of a STATE body. -/
def stateArgs : List Byte → Option (Option LaneState × Half)
  | [st, c1, c0] => some (laneStateOfByte st, half c1 c0)
  | _ => none

/-- The page count of a JOIN-GRANT body. -/
def grantArgs : List Byte → Option Nat
  | [n1, n0] => some (half n1 n0).toNat
  | _ => none

/-- The page and values of a PAGE body; the pass number is not used by the receiver (R132). -/
def pageArgs : List Byte → Option (Nat × List Word)
  | p :: _ :: rest =>
    match wordsOfBytes rest with
    | some ws => some (p.toNat, ws)
    | none => none
  | _ => none

/-- The cycle and signature of a JOIN-FINAL body. -/
def finalArgs : List Byte → Option (Half × Word)
  | [c1, c0, g3, g2, g1, g0] => some (half c1 c0, word g3 g2 g1 g0)
  | _ => none

end Sys2Proof.Machine
end

