-- ==== Sys2Proof/Machine/Flags.lean ====
section
/-! DEFINITION. Every flag, mark and threshold the manual computes: fault weights, fault pressure and pace level (chapter 3),
the conditions of the ALERT and PERMIT lines, the flags of the reply summary, and the cycle being voted. -/

namespace Sys2Proof.Machine

/-- The weight of one raise of a kind (R46); CORRECTED carries it once for each corrected cell. -/
def FaultKind.weight : FaultKind → Nat
  | .corrected => 4
  | .uncorrectable => 64
  | .suspectOverflow => 32
  | .restoreFailed => 32
  | .journalBroken => 16
  | .diverged => 128
  | .abstained => 16
  | .peerSilent => 8
  | .outOfStep => 8
  | .lateAnnounce => 2
  | .linkCheck => 2
  | .wiring => 32
  | .joinFailed => 16
  | .checkpointFailed => 32
  | .peerDiverged => 0
  | .noMajority => 0
  | .pairDisagree => 0
  | .alone => 0
  | .pressureHigh => 0
  | .selfWithdrawn => 0
  | .journalHigh => 0

/-- P after an addition of weight `w` (R46). -/
def pressureAfter (p w : Nat) : Nat := min Config.pressureTop (p + w)

/-- P after an expiry of the decay timer (R47): less one eighth, rounded up. -/
def pressureDecayed (p : Nat) : Nat := p - (p + 7) / 8

/-- The pace level after a change of P, from P and the level before (R48). -/
def paceAfter (p level : Nat) : Nat :=
  if 512 ≤ p then 2
  else if 448 ≤ p then (if level = 2 then 2 else 1)
  else if 256 ≤ p then 1
  else if 192 ≤ p then (if level = 0 then 0 else 1)
  else 0

/-- The patrol's visit interval in units of 100 µs, from the base interval and the pace level (R38). -/
def visitInterval (base pace : Nat) : Nat :=
  if pace = 0 then base else if pace = 1 then max 1 (base / 2) else max 1 (base / 4)

/-- FORMING or ACTIVE: the states in which the lane votes. -/
def voting (x : LaneState) : Bool := x = .forming || x = .active

/-- ALERT is asserted while the accrued set meets the mask or the primary slot holds a frame (R145). -/
def State.alertCond (s : State) : Bool :=
  (s.faults.accrued &&& s.faults.mask) != 0 || s.faults.primary.isSome

/-- PERMIT is asserted only while the lane is ACTIVE, the record is locked and the latest vote outcome since it entered
ACTIVE is AGREE or MAJORITY (R90); the permit mark stands for the last (R89). -/
def State.permitCond (s : State) : Bool :=
  s.lane.state = .active && s.comm.locked && s.lane.permitMark

/-- A close's closing flag: set from acceptance until last closed is set (R54). -/
def State.closingFlag (s : State) : Bool :=
  match s.lane.close with
  | none => false
  | some c => c.stage != .closed

/-- Vote pending: set from the vote's start until it is decided or dropped (R54). -/
def State.votePending (s : State) : Bool :=
  match s.lane.close with
  | none => false
  | some c => c.vote = .running

/-- The hold on drain stands from a CLOSE's acceptance until its release, which step 6 follows at once (R24, R60). -/
def State.holdStands (s : State) : Bool := s.closingFlag

/-- A checkpoint is in flight while the engine is CAPTURING or FINISHING (6.4). -/
def State.inFlight (s : State) : Bool := s.ckpt.state = .capturing || s.ckpt.state = .finishing

/-- The cycle being voted (R74), derived from the close in progress and last closed. -/
def State.cycleVoted (s : State) : Half :=
  match s.lane.close with
  | none => s.lane.lastClosed + 1
  | some c => if c.vote = .settled then c.cycle + 1 else c.cycle

/-- Cells held by the write queue (R20). -/
def queueCellCount (q : List Entry) : Nat := (q.map (fun e => e.values.length)).sum

/-- The reply summary as the part stands (R158). -/
def State.summary (s : State) (stale : Bool) : Summary :=
  { state := s.lane.state, alert := s.alertCond, frameHeld := s.faults.primary.isSome, permit := s.permitCond,
    closing := s.closingFlag, votePending := s.votePending, checkpointRunning := s.inFlight,
    restoreRunning := s.rest.op != .none, joinRunning := s.xfer.role != .none, stale := stale,
    occupancy := s.queue.entries.length, pressure := s.pressure.p / 4 }

/-- STALE-in-reply: set only in the reply to a READ, READ ON or EXCHANGE whose STALE flag is set (R158). -/
def ReplyBody.stale : ReplyBody → Bool
  | .read x _ _ => x
  | .exchange _ _ x => x
  | _ => false

/-- What the part drives on the HDO line. -/
inductive HdoOut where
  | highImpedance
  | filler
  | reply (bytes : List Byte)
deriving DecidableEq, Repr

/-- A filler byte. -/
def fillerByte : Byte := 0xFF

/-- HDO (R154, R156, R160, 1.8): high impedance while HCS is high and while the part is in reset or off; in REPLYING at least
one filler byte and then the bytes of the reply; FFh in every other phase, and in an interval that is not taken. How many
filler bytes go before the marker is a matter of time (log entry 20). -/
def State.hdo (s : State) : HdoOut :=
  if s.link.hcsLow = false ∨ s.phase = .off ∨ s.phase = .held then .highImpedance
  else
    match s.link.phase, s.link.reply with
    | .replying, some r => .reply (fillerByte :: r.bytes)
    | _, _ => .filler

/-- A peer is expected when its last known state is FORMING or ACTIVE and its lost flag is clear (R77). -/
def Peer.expected (p : Peer) : Bool :=
  match p.known with
  | some x => voting x && !p.lost
  | none => false

end Sys2Proof.Machine
end

