-- ==== Sys2Proof/Machine/Ops.lean ====
section
/-! DEFINITION. The named operations over the state: one update per field; sparse tables; the image store and its checks; page
records and regions; ordered page sets; the suspect list; handing frames to the ports; the array controller. -/

namespace Sys2Proof.Machine

/-! ### One named update per field -/

/-- The state with one field replaced; Sys2Proof/Laws/State.lean says of each what it leaves alone. -/
def State.setPhase (s : State) (x : PartPhase) : State := { s with phase := x }
def State.setLrst (s : State) (x : Bool) : State := { s with lrst := x }
def State.setPowerOns (s : State) (x : Nat) : State := { s with powerOns := x }
def State.setFree (s : State) (x : Nat) : State := { s with free := x }
def State.setPending (s : State) (x : List Instr) : State := { s with pending := x }
def State.setImage (s : State) (x : List (Nat × Option StoredCell)) : State := { s with image := x }
def State.setPages (s : State) (x : List (Nat × PageRec)) : State := { s with pages := x }
def State.setHostGrants (s : State) (x : Nat) : State := { s with hostGrants := x }
def State.setLink (s : State) (x : Link) : State := { s with link := x }
def State.setQueue (s : State) (x : Queue) : State := { s with queue := x }
def State.setJournal (s : State) (x : Journal) : State := { s with journal := x }
def State.setPatrol (s : State) (x : Patrol) : State := { s with patrol := x }
def State.setSuspects (s : State) (x : List Nat) : State := { s with suspects := x }
def State.setPressure (s : State) (x : Pressure) : State := { s with pressure := x }
def State.setSign (s : State) (x : SignUnit) : State := { s with sign := x }
def State.setLane (s : State) (x : LaneUnit) : State := { s with lane := x }
def State.setPorts (s : State) (x : Ports) : State := { s with ports := x }
def State.setArray (s : State) (x : RetArray) : State := { s with array := x }
def State.setCtl (s : State) (x : Controller) : State := { s with ctl := x }
def State.setCkpt (s : State) (x : Checkpoint) : State := { s with ckpt := x }
def State.setRest (s : State) (x : Restore) : State := { s with rest := x }
def State.setXfer (s : State) (x : Transfer) : State := { s with xfer := x }
def State.setFaults (s : State) (x : FaultStore) : State := { s with faults := x }
def State.setComm (s : State) (x : Commissioning) : State := { s with comm := x }
def State.setPins (s : State) (x : Pins) : State := { s with pins := x }
def State.setNotes (s : State) (x : Notes) : State := { s with notes := x }

/-! ### Sparse tables

A table over natural-number keys is a list of (key, value) pairs in ONE canonical form: keys strictly rising, and no entry
equal to what an unlisted key reads as. -/

/-- What a table reads as at a key: the listed value, or `d`. -/
def tabGet {α : Type} (d : α) : List (Nat × α) → Nat → α
  | [], _ => d
  | (k, v) :: rest, a => if a = k then v else tabGet d rest a

/-- The table with `v` at `a`; writing what an unlisted key reads as removes the entry. -/
def tabPut {α : Type} [DecidableEq α] (d : α) : List (Nat × α) → Nat → α → List (Nat × α)
  | [], a, v => if v = d then [] else [(a, v)]
  | (k, w) :: rest, a, v =>
    if a < k then (if v = d then (k, w) :: rest else (a, v) :: (k, w) :: rest)
    else if a = k then (if v = d then rest else (a, v) :: rest)
    else (k, w) :: tabPut d rest a v

/-- The first key of a table, if any, is above `a`. -/
def tabAbove {α : Type} (a : Nat) : List (Nat × α) → Bool
  | [] => true
  | (k, _) :: _ => decide (a < k)

/-- The canonical form of a table. -/
def tabWf {α : Type} [DecidableEq α] (d : α) : List (Nat × α) → Bool
  | [] => true
  | (k, v) :: rest => decide (v ≠ d) && tabAbove k rest && tabWf d rest

/-! ### The image store (R1) -/

/-- Cell address of an offset of a page (1.1). -/
def cellAddr (page offset : Nat) : Nat := page * 64 + offset

/-- The stored cell at an address: what the store was last given, or, for a cell nothing has written since power-on, the
FREE VALUE of an unknown cell (log entry 4). -/
def State.cell (s : State) (addr : Nat) : StoredCell :=
  match tabGet none s.image addr with
  | some c => c
  | none => { value := Config.unknownCell s.powerOns addr, damage := Config.unknownDamage s.powerOns addr }

/-- Write one cell: the value with a freshly computed check code (R1). -/
def State.writeCell (s : State) (addr : Nat) (v : Word) : State :=
  s.setImage (tabPut none s.image addr (some { value := v, damage := .intact }))

/-- Write a run of cells in ascending address order. -/
def State.writeRun (s : State) (addr : Nat) : List Word → State
  | [] => s
  | v :: vs => State.writeRun (s.writeCell addr v) (addr + 1) vs

/-- The upsets that have struck the store when a grant reads it (log entry 5). -/
def State.strike (s : State) : List Upset → State
  | [] => s
  | u :: us =>
    State.strike (s.setImage (tabPut none s.image u.cell
      (some { value := (s.cell u.cell).value, damage := u.damage }))) us

/-- What a page's cells were found to be by a grant that checks them: the values read (a corrected cell with its correct
value), how many were corrected, and the offsets that check uncorrectable, in the order read. -/
structure Scan where
  values : List Word
  corrected : Nat
  bad : List Nat
deriving DecidableEq, Repr

def Scan.empty : Scan := { values := [], corrected := 0, bad := [] }

/-- Check the cells of a page at the given offsets in order, skipping those `skip` names (R1): a correctable cell is
rewritten with its correct value and a fresh code in the same grant; an uncorrectable one is left as it is. -/
def scanCells (skip : Nat → Bool) (page : Nat) : List Nat → State → Scan → State × Scan
  | [], s, r => (s, r)
  | o :: os, s, r =>
    if skip (cellAddr page o) then scanCells skip page os s r
    else
      let c := s.cell (cellAddr page o)
      match c.damage with
      | .intact => scanCells skip page os s { r with values := r.values ++ [c.value] }
      | .oneBit =>
        scanCells skip page os (s.writeCell (cellAddr page o) c.value)
          { r with values := r.values ++ [c.value], corrected := r.corrected + 1 }
      | .twoBits => scanCells skip page os s { r with bad := r.bad ++ [o] }

/-- Check all 64 cells of a page in ascending offset order. -/
def scanPage (skip : Nat → Bool) (page : Nat) (s : State) : State × Scan :=
  scanCells skip page (List.range 64) s Scan.empty

/-! ### Regions and parameters in use (R2, R161) -/

/-- The region table in use: the record's, or empty. -/
def State.regions (s : State) : List Region :=
  match s.comm.inUse with
  | none => []
  | some r => r.regions

/-- The region a page lies in, if any (R2). -/
def State.regionOf (s : State) (page : Nat) : Option Region :=
  s.regions.find? (fun r => decide (r.first ≤ page) && decide (page ≤ r.last))

/-- Whether a page is mapped. -/
def State.mapped (s : State) (page : Nat) : Bool := (s.regionOf page).isSome

/-- The five attributes of a page's region (R3), all clear for an unmapped page. -/
def State.isSigned (s : State) (page : Nat) : Bool :=
  match s.regionOf page with
  | none => false
  | some r => r.signed

def State.isJournalled (s : State) (page : Nat) : Bool :=
  match s.regionOf page with
  | none => false
  | some r => r.journalled

def State.isCheckpointed (s : State) (page : Nat) : Bool :=
  match s.regionOf page with
  | none => false
  | some r => r.checkpointed

def State.isGuarded (s : State) (page : Nat) : Bool :=
  match s.regionOf page with
  | none => false
  | some r => r.guarded

def State.isAutoRestore (s : State) (page : Nat) : Bool :=
  match s.regionOf page with
  | none => false
  | some r => r.autoRestore

/-- The mapped, signed and checkpointed pages, ascending. -/
def State.mappedPages (s : State) : List Nat := (List.range 256).filter s.mapped
def State.signedPages (s : State) : List Nat := (List.range 256).filter s.isSigned
def State.checkpointedPages (s : State) : List Nat := (List.range 256).filter s.isCheckpointed

/-- The lane number and the parameters in use, with the defaults of R161 when no record is in use. -/
def State.laneNumber (s : State) : Option Nat := s.comm.inUse.map (fun r => r.lane)

def State.param (s : State) (f : CommRecord → Nat) (d : Nat) : Nat :=
  match s.comm.inUse with
  | none => d
  | some r => f r

def State.voteWindow (s : State) : Nat := s.param CommRecord.voteWindow Config.voteWindow
def State.abstainLimit (s : State) : Nat := s.param CommRecord.abstainLimit Config.abstainLimit
def State.patrolBase (s : State) : Nat := s.param CommRecord.patrolBase Config.patrolBase
def State.decayPeriod (s : State) : Nat := s.param CommRecord.decayPeriod Config.decayPeriod
def State.highMark (s : State) : Nat := s.param CommRecord.highMark Config.highMark
def State.lowMark (s : State) : Nat := s.param CommRecord.lowMark Config.lowMark
def State.holdTime (s : State) : Nat := s.param CommRecord.holdTime Config.holdTime
def State.retryLimit (s : State) : Nat := s.param CommRecord.retryLimit Config.retryLimit
def State.station (s : State) : Nat := s.param CommRecord.station 0

/-! ### Page records (R4) -/

/-- A page's record. -/
def State.page (s : State) (page : Nat) : PageRec := tabGet PageRec.fresh s.pages page

/-- The state with a page's record replaced. -/
def State.putPage (s : State) (page : Nat) (r : PageRec) : State := s.setPages (tabPut PageRec.fresh s.pages page r)

/-- A page's record changed by `f`. -/
def State.mapPage (s : State) (page : Nat) (f : PageRec → PageRec) : State := s.putPage page (f (s.page page))

/-- Every listed page's record changed by `f`. -/
def State.mapPages (s : State) (f : PageRec → PageRec) : List Nat → State
  | [] => s
  | p :: ps => State.mapPages (s.mapPage p f) f ps

/-- The pages whose record is not fresh, ascending; every page with a mark or out of UNSET is among them. -/
def State.touchedPages (s : State) : List Nat := s.pages.map Prod.fst

/-- The pages with the uncaptured mark. -/
def State.uncapturedPages (s : State) : List Nat := s.touchedPages.filter (fun p => (s.page p).uncaptured)

/-! ### Ordered page sets -/

/-- Add a page to an ascending list without duplicates. -/
def setAdd (a : Nat) : List Nat → List Nat
  | [] => [a]
  | b :: rest => if a < b then a :: b :: rest else if a = b then b :: rest else b :: setAdd a rest

/-- Add several pages. -/
def setUnion : List Nat → List Nat → List Nat
  | [], x => x
  | a :: rest, x => setUnion rest (setAdd a x)

/-- Take a page out. -/
def setDrop (a : Nat) (x : List Nat) : List Nat := x.filter (fun b => b != a)

/-! ### The suspect list (R43, R44) -/

/-- Whether a cell is on the suspect list. -/
def State.listed (s : State) (addr : Nat) : Bool := s.suspects.contains addr

/-- Take every listed cell of a page off the suspect list. -/
def State.clearSuspects (s : State) (page : Nat) : State :=
  s.setSuspects (s.suspects.filter (fun a => a / 64 != page))

/-- Offer one cell to the suspect list (R44); the second component says that the offer set the page's suspect-all flag. -/
def offerSuspect (page offset : Nat) (s : State) : State × Bool :=
  if (s.page page).suspectAll then (s, false)
  else if s.listed (cellAddr page offset) then (s, false)
  else if s.suspects.length < Config.suspectCells then (s.setSuspects (s.suspects ++ [cellAddr page offset]), false)
  else (s.mapPage page (fun r => { r with suspectAll := true }), true)

/-- Offer several cells of a page in the finder's order. -/
def offerSuspects (page : Nat) : List Nat → State → State × Bool
  | [], s => (s, false)
  | o :: os, s =>
    let x := offerSuspect page o s
    let y := offerSuspects page os x.1
    (y.1, x.2 || y.2)

/-! ### Ports (R67, R68) -/

/-- The lane a part of lane `n` expects on a port. -/
def expectedLane (n : Nat) : PortId → Nat
  | .one => n % 3 + 1
  | .two => (n + 1) % 3 + 1

/-- The lane expected on a port of this part, or none while it has no lane number. -/
def State.laneOn (s : State) (p : PortId) : Option Nat := s.laneNumber.map (fun n => expectedLane n p)

def Ports.at (x : Ports) : PortId → Port
  | .one => x.one
  | .two => x.two

def Ports.put (x : Ports) (p : PortId) (y : Port) : Ports :=
  match p with
  | .one => { x with one := y }
  | .two => { x with two := y }

/-- Whether a frame belongs to the first group of waiting frames (R67). -/
def LaneFrame.firstGroup : LaneFrame → Bool
  | .announce .. => true
  | .query => true
  | .state .. => true
  | _ => false

/-- A frame handed to a port: sent at once when the port is idle, or put at the end of its group (R67). -/
def Port.hand (x : Port) (f : Outgoing) : Port :=
  match x.sending with
  | none => { x with sending := some f }
  | some _ => if f.frame.firstGroup then { x with first := x.first ++ [f] } else { x with second := x.second ++ [f] }

/-- A port finishes a frame and begins the oldest waiting one, of the first group if there is one (R67). -/
def Port.next (x : Port) : Port :=
  match x.first, x.second with
  | f :: rest, _ => { x with sending := some f, first := rest }
  | [], f :: rest => { x with sending := some f, second := rest }
  | [], [] => { x with sending := none }

/-- Hand a frame to one port, with the lane number in use as its sender lane (R168, R164 step 7); nothing is sent while the part
has no lane number (R68). -/
def State.hand (s : State) (p : PortId) (f : LaneFrame) : State :=
  match s.laneNumber with
  | none => s
  | some n => s.setPorts (s.ports.put p ((s.ports.at p).hand { lane := n, frame := f }))

/-- Hand a frame to both ports. -/
def State.handBoth (s : State) (f : LaneFrame) : State := (s.hand .one f).hand .two f

/-- Hand a frame to the partner's port of the transfer engine, if it has a partner. -/
def State.handPartner (s : State) (f : LaneFrame) : State :=
  match s.xfer.partner with
  | none => s
  | some (_, p) => s.hand p f

/-! ### Peer entries -/

def LaneUnit.peer (x : LaneUnit) : PortId → Peer
  | .one => x.peer1
  | .two => x.peer2

def LaneUnit.putPeer (x : LaneUnit) (p : PortId) (y : Peer) : LaneUnit :=
  match p with
  | .one => { x with peer1 := y }
  | .two => { x with peer2 := y }

/-- A peer entry changed by `f`. -/
def State.mapPeer (s : State) (p : PortId) (f : Peer → Peer) : State :=
  s.setLane (s.lane.putPeer p (f (s.lane.peer p)))

/-- Both peer entries changed by `f`. -/
def State.mapPeers (s : State) (f : Peer → Peer) : State := (s.mapPeer .one f).mapPeer .two f

/-! ### Slots of the array and of the directory -/

def RetArray.slot (x : RetArray) : SlotId → SlotStore
  | .zero => x.slot0
  | .one => x.slot1

def RetArray.putSlot (x : RetArray) (i : SlotId) (y : SlotStore) : RetArray :=
  match i with
  | .zero => { x with slot0 := y }
  | .one => { x with slot1 := y }

def Checkpoint.slot (x : Checkpoint) : SlotId → SlotEntry
  | .zero => x.slot0
  | .one => x.slot1

def Checkpoint.putSlot (x : Checkpoint) (i : SlotId) (y : SlotEntry) : Checkpoint :=
  match i with
  | .zero => { x with slot0 := y }
  | .one => { x with slot1 := y }

def otherSlot : SlotId → SlotId
  | .zero => .one
  | .one => .zero

/-- A generation as a number, for comparison. -/
def generationNat : Option Word → Nat
  | none => 0
  | some g => g.toNat

/-- The active slot (R95): the COMPLETE slot with the higher generation, slot 0 when they are equal, none when neither is
COMPLETE. -/
def Checkpoint.active (x : Checkpoint) : Option SlotId :=
  match x.slot0.state, x.slot1.state with
  | .complete, .complete =>
    if generationNat x.slot0.generation < generationNat x.slot1.generation then some .one else some .zero
  | .complete, _ => some .zero
  | _, .complete => some .one
  | _, _ => none

/-- The inactive slot (R95): the other one; with no active slot, the lower-numbered ERASED slot, or slot 0. -/
def Checkpoint.inactive (x : Checkpoint) : SlotId :=
  match x.active with
  | some i => otherSlot i
  | none => if x.slot0.state = .erased then .zero else if x.slot1.state = .erased then .one else .zero

/-- Whether the journal covers a slot by number and generation (R29). -/
def Journal.covers (j : Journal) (slot : SlotId) (generation : Option Word) : Bool :=
  j.state = .recording && j.base = some (slot, generation)

/-! ### The array and its controller (R92 to R94) -/

/-- The rank of an operation's user (R94). -/
def ArrayOp.rank : ArrayOp → Nat
  | .readPage .. => 1
  | .readRecord => 2
  | .readLock => 2
  | .readHeader _ => 2
  | .eraseCommissioning => 3
  | .programRecord _ => 3
  | .programLock => 3
  | .programBegin .. => 4
  | .programPage .. => 4
  | .programCompletion _ => 4
  | .programAbandon _ => 4
  | .eraseSector .. => 5

/-- Reads suspend an erase in progress; erases are the operations that can be suspended (R93). -/
def ArrayOp.isRead (o : ArrayOp) : Bool := decide (o.rank ≤ 2)

def ArrayOp.isErase : ArrayOp → Bool
  | .eraseCommissioning => true
  | .eraseSector .. => true
  | _ => false

/-- The oldest waiting operation of the given rank, with the rest. -/
def takeRank (n : Nat) : List ArrayOp → Option (ArrayOp × List ArrayOp)
  | [] => none
  | o :: rest =>
    if o.rank = n then some (o, rest)
    else
      match takeRank n rest with
      | none => none
      | some (x, l) => some (x, o :: l)

/-- The oldest waiting operation of the highest-ranked user among the listed ranks (R94). -/
def takeFirst : List Nat → List ArrayOp → Option (ArrayOp × List ArrayOp)
  | [], _ => none
  | n :: ns, w =>
    match takeRank n w with
    | some x => some x
    | none => takeFirst ns w

/-- An operation begins. The stored record becomes BLANK when the erase of the commissioning sector begins (R163). -/
def State.startOp (s : State) (o : ArrayOp) : State :=
  let s := s.setCtl { s.ctl with op := some o }
  if o = .eraseCommissioning then s.setComm { s.comm with stored := .erased } else s

/-- The controller is free (R94): a waiting read starts; else a suspended erase resumes; else the waiting operation of the
highest-ranked user starts. -/
def State.nextOp (s : State) : State :=
  match takeFirst [1, 2] s.ctl.waiting with
  | some (o, rest) => (s.setCtl { s.ctl with waiting := rest }).startOp o
  | none =>
    match s.ctl.suspended with
    | some o => s.setCtl { s.ctl with op := some o, suspended := none }
    | none =>
      match takeFirst [3, 4, 5] s.ctl.waiting with
      | some (o, rest) => (s.setCtl { s.ctl with waiting := rest }).startOp o
      | none => s.setCtl { s.ctl with op := none }

/-- A user asks for an operation (R93, R94): it starts at once when none is in progress; a read suspends an erase in progress;
otherwise it waits. -/
def State.ask (s : State) (o : ArrayOp) : State :=
  match s.ctl.op with
  | none => s.startOp o
  | some cur =>
    if o.isRead && cur.isErase then s.setCtl { s.ctl with op := some o, suspended := some cur }
    else s.setCtl { s.ctl with waiting := s.ctl.waiting ++ [o] }

/-- The operation in progress has ended; the controller goes on. -/
def State.opEnded (s : State) : State := (s.setCtl { s.ctl with op := none }).nextOp

/-- Withdraw the waiting operations of the checkpoint engine's capture (R106: asked for and not yet started). -/
def State.withdrawCapturePrograms (s : State) : State :=
  s.setCtl { s.ctl with waiting := s.ctl.waiting.filter (fun o => o.rank != 4) }

/-- A field that has been programmed since its erase reads erased no more (R92). -/
def usedField {α : Type} : Field α → Field α
  | .erased => .damaged
  | x => x

/-- A page place likewise. -/
def usedPlace : Place → Place
  | .erased => .checkFailure
  | x => x

/-- The record's place likewise. -/
def usedRecord : RecordPlace → RecordPlace
  | .erased => .checkFailure
  | x => x

/-- A program of a field (R92): what the area reads back as, and whether that is a fault. The area reads back as written only
when it was erased and nothing else is reported. -/
def programField {α : Type} [DecidableEq α] (was : Field α) (v : α) (left : Option (Field α)) : Field α × Bool :=
  let now := usedField (left.getD (if was = .erased then .whole v else .damaged))
  (now, !(decide (was = .erased) && decide (now = .whole v)))

/-- A program of a page place, likewise. -/
def programPlace (was : Place) (page : Nat) (cells : List Word) (left : Option Place) : Place × Bool :=
  let now := usedPlace (left.getD (if was = .erased then .record page cells else .checkFailure))
  (now, !(decide (was = .erased) && decide (now = .record page cells)))

/-- A slot's page place. -/
def SlotStore.place (x : SlotStore) (page : Nat) : Place := tabGet .erased x.places page

def SlotStore.putPlace (x : SlotStore) (page : Nat) (v : Place) : SlotStore :=
  { x with places := tabPut .erased x.places page v }

/-- The 16 places from page `page` on take the listed contents, and are erased where the list ends. -/
def SlotStore.putSector (x : SlotStore) (page : Nat) : Nat → List Place → SlotStore
  | 0, _ => x
  | n + 1, [] => SlotStore.putSector (x.putPlace page .erased) (page + 1) n []
  | n + 1, v :: vs => SlotStore.putSector (x.putPlace page v) (page + 1) n vs

/-- A sector erase of a slot (R92): the slot afterwards, and whether some place of the sector does not read as erased. -/
def eraseSlotSector (x : SlotStore) (sector : Nat) (left : Option SectorLeft) : SlotStore × Bool :=
  if sector < 16 then
    match left with
    | some (.data places) =>
      (x.putSector (sector * 16) 16 places, (places.take 16).any (fun p => p != .erased))
    | _ => (x.putSector (sector * 16) 16 [], false)
  else
    match left with
    | some (.header b c a others) =>
      ({ x with begins := b, completion := c, abandon := a }, b != .erased || c != .erased || a != .erased || others)
    | _ => ({ x with begins := .erased, completion := .erased, abandon := .erased }, false)

/-- How a place of a sector whose erase was cut short reads (R93). -/
def cutPlace (c : EraseCut) (was : Place) : Place :=
  match c with
  | .erased => .erased
  | .bad => .checkFailure
  | .kept => was

def cutField {α : Type} (c : EraseCut) (was : Field α) : Field α :=
  match c with
  | .erased => .erased
  | .bad => .damaged
  | .kept => was

/-- The record's place after a cut erase of the commissioning sector: it reads as BLANK or DAMAGED and never as the record it
held (R163). -/
def cutRecord (c : EraseCut) (was : RecordPlace) : RecordPlace :=
  match c, was with
  | .erased, _ => .erased
  | .kept, .erased => .erased
  | _, _ => .checkFailure

/-- The 16 places from page `page` on, as a cut erase leaves them. -/
def SlotStore.cutSector (x : SlotStore) (page : Nat) : Nat → List EraseCut → SlotStore
  | 0, _ => x
  | n + 1, cs =>
    SlotStore.cutSector (x.putPlace page (cutPlace (cs.headD .kept) (x.place page))) (page + 1) n cs.tail

/-- What a reset or a loss of power leaves of one operation in progress or suspended (R93, R108). -/
def cutOp (o : ArrayOp) (c : Cut) (x : RetArray) : RetArray :=
  match o with
  | .readPage .. | .readRecord | .readLock | .readHeader _ => x
  | .eraseCommissioning =>
    { x with record := cutRecord (c.cuts.headD .kept) x.record, lock := cutField (c.cuts.tail.headD .kept) x.lock }
  | .programRecord r =>
    { x with record := if c.whole && x.record = .erased then .record r (Config.recordCheck r) else .checkFailure }
  | .programLock => { x with lock := if c.whole && x.lock = .erased then .whole () else .damaged }
  | .programBegin i f =>
    x.putSlot i { x.slot i with begins := if c.whole && (x.slot i).begins = .erased then .whole f else .damaged }
  | .programPage i p cells =>
    x.putSlot i ((x.slot i).putPlace p
      (if c.whole && (x.slot i).place p = .erased then .record p cells else .checkFailure))
  | .programCompletion i =>
    x.putSlot i { x.slot i with completion := if c.whole && (x.slot i).completion = .erased then .whole () else .damaged }
  | .programAbandon i =>
    x.putSlot i { x.slot i with abandon := if c.whole && (x.slot i).abandon = .erased then .whole () else .damaged }
  | .eraseSector i n =>
    if n < 16 then x.putSlot i ((x.slot i).cutSector (n * 16) 16 c.cuts)
    else
      x.putSlot i { x.slot i with
        begins := cutField (c.cuts.headD .kept) (x.slot i).begins,
        completion := cutField (c.cuts.tail.headD .kept) (x.slot i).completion,
        abandon := cutField (c.cuts.tail.tail.headD .kept) (x.slot i).abandon }

/-- The array after a reset or loss of power: the operation in progress and a suspended erase stop where they stand. -/
def cutArray (ctl : Controller) (c : Cut) (x : RetArray) : RetArray :=
  let x := match ctl.op with
    | none => x
    | some o => cutOp o c x
  match ctl.suspended with
  | none => x
  | some o => cutOp o c x

end Sys2Proof.Machine
end

