-- ==== Sys2Proof/Machine/Raise.lean ====
section
/-! DEFINITION. What one event sets off in several blocks at once: raising a fault kind (R142) with its weight (R46) and the
crossings of the pressure thresholds (R49, R50), placing a fault frame (R149), moving the lane state (R85), dropping a vote
(R84), and ending a donation (R138) or a reception (R137). -/

namespace Sys2Proof.Machine

/-! ### The fault store (R142, R149) -/

/-- The kind enters the current and accrued sets and the any-fault flag is set (R142 steps 1 and 2). -/
def State.noteKind (s : State) (k : FaultKind) : State :=
  s.setFaults { s.faults with current := s.faults.current ||| k.bit, accrued := s.faults.accrued ||| k.bit, any := true }

/-- The families rank CLOSING first, then TRANSFER, ACCESS, PATROL, and LINK last (R149). -/
def FaultFrame.rank : FaultFrame → Nat
  | .closing .. => 5
  | .transfer .. => 4
  | .access .. => 3
  | .patrol .. => 2
  | .link .. => 1

/-- A captured frame is placed by the first case of R149 that applies. -/
def State.placeFrame (s : State) (f : FaultFrame) : State :=
  match s.faults.primary, s.faults.secondary with
  | none, _ => s.setFaults { s.faults with primary := some f }
  | some _, none => s.setFaults { s.faults with secondary := some f }
  | some _, some g =>
    if g.rank < f.rank then s.setFaults { s.faults with secondary := some f, lost := true }
    else s.setFaults { s.faults with lost := true }

/-- Add a weight to P (R46); the pace level follows a change of P (R48), and PRESSURE_HIGH is raised when P reaches 512 from
below (R49). -/
def State.addPressure (s : State) (w : Nat) : State :=
  let p := s.pressure.p
  let q := pressureAfter p w
  let s := s.setPressure { s.pressure with p := q }
  let s := if q = p then s else s.setPatrol { s.patrol with pace := paceAfter q s.patrol.pace }
  if p < Config.pressureHigh ∧ Config.pressureHigh ≤ q then s.noteKind .pressureHigh else s

/-- A raise without its effect on the lane: kind, weight and threshold of R49. -/
def State.raiseCore (s : State) (k : FaultKind) (w : Nat) : State := (s.noteKind k).addPressure w

/-! ### The close's last steps, and the drop of a vote -/

/-- A close that has done its steps and has no undecided vote is no longer in progress (R54). -/
def State.retireClose (s : State) : State :=
  match s.lane.close with
  | none => s
  | some c => if c.stage = .closed ∧ c.vote ≠ .running then s.setLane { s.lane with close := none } else s

/-- Steps 4 to 6 of R60: the hold is released, last closed is set, the closing flag is cleared. -/
def State.releaseHold (s : State) : State :=
  match s.lane.close with
  | none => s
  | some c =>
    State.retireClose (s.setLane { s.lane with lastClosed := c.cycle, close := some { c with stage := .closed } })

/-- A list with its last element changed. -/
def mapLast {α : Type} (f : α → α) : List α → List α
  | [] => []
  | [a] => [f a]
  | a :: b :: rest => a :: mapLast f (b :: rest)

/-- An entry still AWAITED becomes NOT_EXPECTED (R61, R84). -/
def PeerNote.unawait (n : PeerNote) : PeerNote :=
  if n.arrival = .awaited then { n with arrival := .notExpected } else n

/-- An undecided vote is dropped (R84). -/
def State.dropVote (s : State) : State :=
  match s.lane.close with
  | none => s
  | some c =>
    if c.vote = .running then
      State.retireClose (s.setLane { s.lane with
        window := none,
        close := some { c with vote := .settled },
        history := mapLast (fun r => { r with outcome := .notVoted, peer1 := r.peer1.unawait, peer2 := r.peer2.unawait })
          s.lane.history })
    else s

/-- Both slots of both peer entries are emptied (R76). -/
def State.emptySlots (s : State) : State := s.mapPeers (fun p => { p with pending := none, early := none })

/-! ### Ending a donation, moving the lane, raising a kind -/

/-- The role returns to none: every item of the transfer engine takes its value after reset and both relations are none
(R124). -/
def State.clearTransfer (s : State) : State :=
  (s.setXfer Transfer.fresh).mapPeers (fun p => { p with relation := .none })

/-- The common effects of a donation's end (R138): JOIN-ABORT where a reason is given, role none, and the release of a hold
that a closing pass keeps. -/
def State.donationOver (s : State) (abort : Option Reason) : State :=
  let held : Bool := match s.lane.close with
    | none => false
    | some c => c.stage = .closingPass
  let s := match abort with
    | none => s
    | some why => s.handPartner (.joinAbort why)
  let s := s.clearTransfer
  if held then s.releaseHold else s

/-- A TRANSFER frame of an ended donation (R138). -/
def donateFrame (page : Option Nat) (retry : Nat) (why : Reason) : FaultFrame :=
  .transfer .joinFailed .donate page none retry why

/-- The lane state becomes `dest`, with the effects of R85 but for the test of P on entering the active set: the slots are
emptied outside FORMING and ACTIVE (R76), an undecided vote is dropped when the lane leaves them (R84), the permit mark is
cleared on entering and on leaving ACTIVE (R89), and a donation ends when the lane leaves ACTIVE (R138). The STATE frame is
owed at the end of the event (R70). -/
def State.shiftLane (s : State) (dest : LaneState) : State :=
  let was := s.lane.state
  if was = dest then s
  else
    let s := (s.setLane { s.lane with state := dest }).setNotes { s.notes with moved := true }
    let s := if voting dest then s else s.emptySlots
    let s := if voting was && !voting dest then s.dropVote else s
    let s := if was = .active ∨ dest = .active then s.setLane { s.lane with permitMark := false } else s
    if was = .active ∧ s.xfer.role = .donor then
      ((s.donationOver (some .donorLeft)).raiseCore .joinFailed FaultKind.joinFailed.weight).placeFrame
        (donateFrame none 0 .donorLeft)
    else s

/-- The lane withdraws itself (R50, R58, R136): SELF_WITHDRAWN is raised and the lane goes to EXCLUDED; its CLOSING frame is
owed at the end of the event (R147). -/
def State.selfWithdraw (s : State) : State :=
  let s := s.raiseCore .selfWithdrawn FaultKind.selfWithdrawn.weight
  (s.setNotes { s.notes with withdrawn := true }).shiftLane .excluded

/-- A move of the lane state; a lane that enters FORMING or ACTIVE with P at 768 or more withdraws itself at once (R50). -/
def State.moveLane (s : State) (dest : LaneState) : State :=
  if s.lane.state = dest then s
  else
    let s := s.shiftLane dest
    if voting dest ∧ Config.pressureWithdraw ≤ s.pressure.p then s.selfWithdraw else s

/-- A raise of a kind with weight `w` (R142): an addition that takes P from below 768 to 768 or more in FORMING or ACTIVE
withdraws the lane (R50). The frame of a donation that this ends is placed here, before the frame of the raise itself (log
entry 60). -/
def State.raise (s : State) (k : FaultKind) (w : Nat) : State :=
  let p := s.pressure.p
  let s := s.raiseCore k w
  if p < Config.pressureWithdraw ∧ Config.pressureWithdraw ≤ s.pressure.p ∧ voting s.lane.state then s.selfWithdraw
  else s

/-- The same raise several times. -/
def State.raiseTimes (s : State) (k : FaultKind) (w : Nat) : Nat → State
  | 0 => s
  | n + 1 => State.raiseTimes (s.raise k w) k w n

/-- A donation ends without JOIN-FINAL for a cause other than the lane leaving ACTIVE (R138). -/
def State.endDonation (s : State) (abort : Option Reason) (page : Option Nat) (retry : Nat) (why : Reason) : State :=
  ((s.donationOver abort).raise .joinFailed FaultKind.joinFailed.weight).placeFrame (donateFrame page retry why)

/-- A reception ends without completing (R137): JOIN-ABORT to the partner where the table sends one, role none, JOIN_FAILED
with a TRANSFER frame, and STANDBY from JOINING. -/
def State.endReception (s : State) (abort : Bool) (page : Option Nat) (why : Reason) : State :=
  let s := if abort then s.handPartner (.joinAbort why) else s
  let s := s.clearTransfer
  let s := (s.raise .joinFailed FaultKind.joinFailed.weight).placeFrame (.transfer .joinFailed .receive page none 0 why)
  if s.lane.state = .joining then s.moveLane .standby else s

/-! ### The end of an event -/

/-- The CLOSING frame of a SELF_WITHDRAWN raise, from the newest cycle record at the end of the event (R147). -/
def State.withdrawnFrame (s : State) : FaultFrame :=
  match s.lane.history.getLast? with
  | some r => .closing .selfWithdrawn r.cycle r.signature r.peer1 r.peer2 r.outcome
  | none =>
    let note := fun (p : Peer) =>
      ({ lane := p.lane, arrival := .notExpected, state := p.known, signature := none } : PeerNote)
    .closing .selfWithdrawn s.lane.lastClosed none (note s.lane.peer1) (note s.lane.peer2) .notVoted

/-- The frame of a withdrawal, where one is owed: it is placed once. -/
def State.frameOwed (s : State) : State :=
  if s.notes.withdrawn then (s.placeFrame s.withdrawnFrame).setNotes { s.notes with withdrawn := false } else s

/-- The reply is built where a request's handling has ended in this event (R156, R157); it is lost when the interval that
brought the request is closed (R154). A STARTING reply has no summary (R158). -/
def State.buildReply (s : State) : State :=
  match s.link.answer with
  | none => s
  | some a =>
    if s.link.live then
      s.setLink { s.link with
        answer := none, phase := .replying,
        reply := some { kind := a.kind, tag := a.tag, status := a.status,
                        summary := if a.status = .starting then none else some (s.summary a.body.stale), body := a.body } }
    else s.setLink { s.link with answer := none }

/-- The STATE frame of a change of the lane state, one to each port, with the state and last closed as they stand at the end
of the event (R70). -/
def State.tellState (s : State) : State :=
  let t := if s.notes.moved then s.handBoth (.state s.lane.state s.lane.lastClosed) else s
  t.setNotes { moved := false, withdrawn := false }

/-- The output lines follow their conditions (R90, R145, R166): PERMIT starts with a high half-period and is driven low at once
when a condition fails. -/
def State.drivePins (s : State) : State :=
  s.setPins { started := decide (s.phase = .running), alert := s.alertCond, permit := s.permitCond,
              permitHigh := s.permitCond && (s.pins.permitHigh || !s.pins.permit) }

/-- An event that another grant follows ends before it: its CLOSING frame and its STATE frames go first (R15, R70, R147). -/
def State.eventOver (s : State) : State := s.frameOwed.tellState

/-- What every event does at its end. -/
def State.closeEvent (s : State) : State := s.frameOwed.buildReply.tellState.drivePins

end Sys2Proof.Machine
end

