-- ==== Sys2Proof/Machine/Store.lean ====
section
/-! DEFINITION. What the finding of a damaged cell sets off (R5, R42, R44, R111, R133); the journal (R28 to R36); the drain
policy and what a drain does (R22 to R27); and the store arbiter's choice of the next grant (R15, R16). -/

namespace Sys2Proof.Machine

/-! ### Findings of a block that reads the store -/

/-- A page of the received set that is no longer current leaves it, with a PAGE-AGAIN to the partner (R133). -/
def State.lostReceived (s : State) (page : Nat) : State :=
  match s.xfer.role with
  | .receiver _ =>
    if s.xfer.received.contains page then
      (s.setXfer { s.xfer with received := setDrop page s.xfer.received }).handPartner (.pageAgain page)
    else s
  | _ => s

/-- A page in which a new uncorrectable cell was found becomes SUSPECT from SOUND or STALE (R5). -/
def State.makeSuspect (s : State) (page : Nat) : State :=
  if (s.page page).state = .sound ∨ (s.page page).state = .stale then
    (s.mapPage page (fun r => { r with state := .suspect })).lostReceived page
  else s

/-- An auto-restore offer to the restore list (R111). -/
def State.offerRestore (s : State) (page : Nat) : State :=
  if s.rest.list.contains page then s
  else if Config.restoreListPages ≤ s.rest.list.length then
    (s.raise .restoreFailed FaultKind.restoreFailed.weight).placeFrame
      (.transfer .restoreFailed .pageRestore (some page) none 0 .listFull)
  else s.setRest { s.rest with list := s.rest.list ++ [page] }

/-- The hand-on of a grant that checked a page (R42): suspect list and page state, restore hand-off, faults, PATROL frame.
The frame of a donation that the faults end goes before it (log entry 60). -/
def State.handOn (s : State) (page : Nat) (r : Scan) : State :=
  let o := offerSuspects page r.bad s
  let full := o.2
  let s := o.1
  let s := if r.bad = [] then s else s.makeSuspect page
  let s := if r.bad ≠ [] ∧ s.isAutoRestore page then s.offerRestore page else s
  let s := if r.corrected = 0 then s else s.raise .corrected (FaultKind.corrected.weight * r.corrected)
  let s := s.raiseTimes .uncorrectable FaultKind.uncorrectable.weight r.bad.length
  let s := if full then s.raise .suspectOverflow FaultKind.suspectOverflow.weight else s
  if r.bad = [] then s
  else
    s.placeFrame (.patrol (if full then .suspectOverflow else .uncorrectable) page r.corrected r.bad s.patrol.round)

/-! ### The journal -/

/-- The journal goes BROKEN: records discarded, base cleared (R29, R36). The next sequence number and the noted start sequence
stay. -/
def State.breakJournal (s : State) : State :=
  s.setJournal { s.journal with state := .broken, records := [], base := none }

/-- A break that raises JOURNAL_BROKEN with its TRANSFER frame (R34, R35, R28, R148). -/
def State.journalBreaks (s : State) (page : Nat) (why : Reason) : State :=
  let slot := s.journal.base.map Prod.fst
  (s.breakJournal.raise .journalBroken FaultKind.journalBroken.weight).placeFrame
    (.transfer .journalBroken .checkpoint (some page) slot 0 why)

/-- A record takes the next sequence number and goes to the end of the list (R28); JOURNAL_HIGH is raised when the count goes
from 895 to 896 (R33). -/
def State.addRecord (s : State) (e : Entry) : State :=
  let j := s.journal
  let s := s.setJournal { j with
    records := j.records ++ [{ sequence := j.next, page := e.page, offset := e.offset, values := e.values }],
    next := if j.next = Config.lastSequence then 0 else j.next + 1 }
  if j.records.length + 1 = Config.journalHigh then s.raise .journalHigh FaultKind.journalHigh.weight else s

/-- An append (R28, R34, R35). A next sequence number of 0 is tested before the room in the journal (log entry 44). -/
def State.journalAppend (s : State) (e : Entry) : State :=
  let j := s.journal
  if j.state = .broken then s
  else if j.next = 0 then
    (s.setJournal { j with next := 1 }).journalBreaks e.page .sequenceEnd
  else if j.records.length < Config.journalRecords then s.addRecord e
  else
    match j.start with
    | none => s.journalBreaks e.page .journalFull
    | some n =>
      let kept := j.records.filter (fun r => decide (n ≤ r.sequence))
      if kept.length < Config.journalRecords then
        (s.setJournal { j with state := .pendingBase, base := none, records := kept }).addRecord e
      else s.journalBreaks e.page .journalFull

/-- A snapshot opens (R30). -/
def State.journalOpens (s : State) : State :=
  let j := s.journal
  let j := if j.state = .broken then { j with state := .pendingBase, records := [], base := none } else j
  s.setJournal { j with start := some j.next }

/-- A checkpoint completes and its slot is active (R31). -/
def State.journalCompletes (s : State) (slot : SlotId) (generation : Option Word) : State :=
  let j := s.journal
  let j := match j.state with
    | .recording =>
      { j with records := j.records.filter (fun r => decide (j.start.getD 0 ≤ r.sequence)), base := some (slot, generation) }
    | .pendingBase => { j with state := .recording, base := some (slot, generation) }
    | .broken => j
  s.setJournal { j with start := none }

/-- A checkpoint in flight is cancelled or fails (R32); a lane reset acts likewise (R36). -/
def Journal.ended (j : Journal) : Journal :=
  match j.state with
  | .pendingBase => { j with state := .broken, records := [], base := none, start := none }
  | _ => { j with start := none }

/-! ### The drain policy (R22 to R26) -/

/-- The high-mark run begins at H entries or more and ends at L or fewer (R22). -/
def State.updateRun (s : State) : State :=
  let n := s.queue.entries.length
  s.setQueue { s.queue with
    run := if s.highMark ≤ n then true else if n ≤ s.lowMark then false else s.queue.run }

/-- Whether a trigger makes the drain of the head entry due (R22, R23, R24): a closing entry at once; while the hold stands no
other; otherwise during a high-mark run, or while some entry's age has reached T. -/
def State.drainDue (s : State) : Bool :=
  match s.queue.entries with
  | [] => false
  | e :: _ =>
    e.closing ||
      (!s.holdStands && (s.queue.run || s.queue.entries.any (fun x => decide (s.holdTime ≤ x.age))))

/-- An entry whose page is unmapped or UNSET is discarded instead of drained (R25). -/
def State.discards (s : State) (e : Entry) : Bool := !s.mapped e.page || (s.page e.page).state = .unset

/-- Drain is eligible (R25, R26): due, and the head entry's page neither RESTORING nor uncaptured, or to be discarded.
An entry to be discarded waits for a trigger and a grant like any other (log entry 56). -/
def State.drainEligible (s : State) : Bool :=
  match s.queue.entries with
  | [] => false
  | e :: _ =>
    s.drainDue && (s.discards e || ((s.page e.page).state != .restoring && !(s.page e.page).uncaptured))

/-- The page whose forced capture is needed (R26, R101): the head entry's, while its drain is due and the page carries the
uncaptured mark (log entry 16). -/
def State.forcedPage (s : State) : Option Nat :=
  match s.queue.entries with
  | [] => none
  | e :: _ => if s.drainDue && !s.discards e && (s.page e.page).uncaptured then some e.page else none

/-- What a drain does with its entry (R27), the suspect cells, the page and its marks first. -/
def State.drainPage (s : State) (e : Entry) : State :=
  let cells := (List.range e.values.length).map (fun i => cellAddr e.page (e.offset + i))
  let s := s.writeRun (cellAddr e.page e.offset) e.values
  let s := s.setSuspects (s.suspects.filter (fun a => !cells.contains a))
  let clean := !(s.page e.page).suspectAll && !s.suspects.any (fun a => a / 64 == e.page)
  s.mapPage e.page (fun r =>
    { r with
      state :=
        match r.state with
        | .suspect => if clean then .sound else .suspect
        | .stale => .sound
        | x => x
      dirty := true
      written := true })

/-- A page of a donation's sent set that a drain changes is put into the resend set (R27 step 5, R129). -/
def State.resendIfSent (s : State) (page : Nat) : State :=
  if s.xfer.role = .donor ∧ s.xfer.sent.contains page then
    s.setXfer { s.xfer with resend := setAdd page s.xfer.resend }
  else s

/-- One drain of the head entry (R25, R27). -/
def State.drainHead (s : State) : State :=
  match s.queue.entries with
  | [] => s
  | e :: rest =>
    if s.discards e then s.setQueue { s.queue with entries := rest }
    else
      let s := s.drainPage e
      let s := if s.isJournalled e.page then s.journalAppend e else s
      let s := (s.resendIfSent e.page).lostReceived e.page
      s.setQueue { s.queue with entries := rest }

/-! ### The store arbiter (R15, R16) -/

/-- The grant units (R15). -/
inductive Grant where
  | hostRead
  | fillPage
  | drain
  | restoreWrite
  | transferIn
  | signature
  | capture
  | transferOut
  | patrol
deriving DecidableEq, Repr

/-- A close's closing pass runs (R131). -/
def State.closingPassRuns (s : State) : Bool :=
  match s.lane.close with
  | none => false
  | some c => c.stage = .closingPass

/-- A host read waits: a read the arbiter has yet to serve, or an EXCHANGE that must read the store and whose page is not
RESTORING (R15, R19). -/
def State.hostReadWaits (s : State) : Bool :=
  match s.link.job with
  | some (.read ..) => true
  | some (.exchange _ page ..) => (s.page page).state != .restoring
  | _ => false

/-- A fill page waits: no queued entry covers a page of the region any more (R14). -/
def State.fillWaits (s : State) : Bool :=
  match s.link.job with
  | some (.fill _ _ _ todo) =>
    match todo with
    | [] => false
    | p :: _ =>
      !s.queue.entries.any (fun e =>
        match s.regionOf p with
        | none => false
        | some r => decide (r.first ≤ e.page) && decide (e.page ≤ r.last))
  | _ => false

/-- A restore write waits: the page's record has been read (R114, R121). -/
def State.restoreWriteWaits (s : State) : Bool :=
  match s.rest.op with
  | .page _ _ _ (some _) => true
  | .image i => i.cells.isSome
  | _ => false

/-- A transfer-in waits; not while its page is RESTORING (R15, R132). -/
def State.transferInWaits (s : State) : Bool :=
  match s.xfer.role, s.xfer.inbound with
  | .receiver _, x :: _ => (s.page x.page).state != .restoring
  | _, _ => false

/-- The signature pass of a close, or a join check, has a page to sign. -/
def State.passWaits (s : State) : Bool :=
  (match s.lane.close with
   | none => false
   | some c => c.stage = .signing) && !s.sign.todo.isEmpty

def State.joinCheckWaits (s : State) : Bool :=
  s.xfer.role = .receiver .checking && s.xfer.checkBegun && !s.sign.todo.isEmpty

/-- Whether a page can be captured, or dealt with as UNSET, when the orderly order reaches it (R101). -/
def State.capturable (s : State) (p : Nat) : Bool :=
  (s.page p).state = .sound || (s.page p).state = .stale || (s.page p).state = .unset

/-- The checkpoint engine keeps a capture request waiting (R101). -/
def State.captureWaits (s : State) : Bool :=
  s.ckpt.state = .capturing && decide (s.ckpt.buffer.length < Config.captureBuffer) &&
    (s.forcedPage.isSome || s.uncapturedPages.any s.capturable)

/-- The waiting frames handed over since the JOIN-GRANT of the donation in hand, or all of them once it has been begun. -/
def sinceGrant : List LaneFrame → List LaneFrame → List LaneFrame
  | acc, [] => acc
  | acc, f :: rest =>
    match f with
    | .joinGrant _ => sinceGrant [] rest
    | _ => sinceGrant (acc ++ [f]) rest

def isPageFrame : LaneFrame → Bool
  | .page .. => true
  | _ => false

/-- A PAGE frame of this donation waits unsent at the partner's port (R128). -/
def State.pageUnsent (s : State) : Bool :=
  match s.xfer.partner with
  | none => false
  | some (_, p) => (sinceGrant [] ((s.ports.at p).second.map Outgoing.frame)).any isPageFrame

/-- The donor asks for a transfer-out (R128). -/
def State.transferOutWaits (s : State) : Bool :=
  s.xfer.role = .donor && !s.pageUnsent &&
    (if s.closingPassRuns then !s.xfer.closing.isEmpty else !s.xfer.plan.isEmpty)

/-- A non-host request waits. -/
def State.nonHostWaits (s : State) : Bool :=
  s.restoreWriteWaits || s.transferInWaits || s.passWaits || s.joinCheckWaits || s.captureWaits || s.transferOutWaits ||
    s.patrol.request

/-- The non-host unit the arbiter would grant (R16 step 2). -/
def State.pickNonHost (s : State) : Option Grant :=
  if s.restoreWriteWaits then some .restoreWrite
  else if s.transferInWaits then some .transferIn
  else if s.passWaits || s.joinCheckWaits then some .signature
  else if s.captureWaits then some .capture
  else if s.transferOutWaits then some .transferOut
  else if s.patrol.request then some .patrol
  else none

/-- The host-side unit the arbiter would grant (R16 step 1). -/
def State.pickHost (s : State) : Option Grant :=
  if s.hostReadWaits then some .hostRead
  else if s.fillWaits then some .fillPage
  else if s.drainEligible then some .drain
  else none

/-- A host-side request may be granted (R16 step 1): no non-host request waits, or fewer than 4 host-side grants have gone
before it in a row. -/
def State.hostTurn (s : State) : Bool := !s.nonHostWaits || decide (s.hostGrants < Config.hostRun)

/-- The arbiter's next grant (R16). -/
def State.pick (s : State) : Option Grant :=
  match s.pickHost with
  | some g => if s.hostTurn then some g else s.pickNonHost
  | none => s.pickNonHost

/-- The count of host-side grants after one of them (R16): it rises while a non-host request waits, and returns to 0
otherwise. -/
def State.countHost (s : State) : State := s.setHostGrants (if s.nonHostWaits then s.hostGrants + 1 else 0)

/-- The count after a non-host grant (R16). -/
def State.countNonHost (s : State) : State := s.setHostGrants 0

end Sys2Proof.Machine
end

