-- ==== Sys2Proof/Machine/Engines.lean ====
section
/-! DEFINITION. The checkpoint engine (chapter 6), the restore engine (chapter 7) and the transfer engine (chapter 8): what they
do within the events that reach them. -/

namespace Sys2Proof.Machine

/-! ### Checkpoint engine -/

/-- The effects of a cancellation (R106), which a failure shares (R107): the buffer empties, uncaptured marks clear, the WRITING
slot becomes INVALID and, the engine entering ERASING in the same event, ERASING (log entry 17); the journal acts by R32;
the programs not yet started are withdrawn; the abandon mark is asked for. -/
def State.abandonCheckpoint (s : State) : State :=
  let s := s.mapPages (fun r => { r with uncaptured := false }) s.uncapturedPages
  let slot := s.ckpt.target
  let s := s.setCkpt { (s.ckpt.putSlot slot { SlotEntry.unknown with state := .erasing }) with
    state := .erasing, buffer := [], cycle := none, start := none, captured := 0, toCapture := 0, erased := 0,
    begun := false, asked := false }
  let s := s.setJournal s.journal.ended
  s.withdrawCapturePrograms.ask (.programAbandon slot)

/-- A checkpoint in flight fails (R107). -/
def State.failCheckpoint (s : State) (page : Option Nat) (why : Reason) : State :=
  let slot := s.ckpt.target
  (s.abandonCheckpoint.raise .checkpointFailed FaultKind.checkpointFailed.weight).placeFrame
    (.transfer .checkpointFailed .checkpoint page (some slot) 0 why)

/-- An uncaptured SUSPECT page that no restore will reach (R103). -/
def State.unrestorable (s : State) (p : Nat) : Bool :=
  (s.page p).state = .suspect && !s.rest.list.contains p

/-- The checkpoint fails with SOURCE_FAULT in the event in which such a page first stands (R103). -/
def State.sourceFault (s : State) : State :=
  if s.inFlight then
    match s.uncapturedPages.find? s.unrestorable with
    | none => s
    | some p => s.failCheckpoint (some p) .sourceFault
  else s

/-- When the only uncaptured pages left are UNSET, they are dealt with in the event that leaves them so: marks cleared,
counted as captured (R101). -/
def State.passUnset (s : State) : State :=
  let pages := s.uncapturedPages
  if s.ckpt.state = .capturing ∧ pages ≠ [] ∧ pages.all (fun p => (s.page p).state = .unset) then
    let s := s.mapPages (fun r => { r with uncaptured := false }) pages
    s.setCkpt { s.ckpt with captured := s.ckpt.captured + pages.length }
  else s

/-- The engine's next program (R104, R105): the oldest buffer entry's page record, or, with everything captured and programmed,
the completion mark, with the engine in FINISHING. -/
def State.nextProgram (s : State) : State :=
  if s.ckpt.state = .capturing ∧ s.ckpt.begun ∧ ¬ s.ckpt.asked then
    match s.ckpt.buffer with
    | e :: _ => (s.setCkpt { s.ckpt with asked := true }).ask (.programPage s.ckpt.target e.page e.cells)
    | [] =>
      if s.uncapturedPages = [] then
        (s.setCkpt { s.ckpt with state := .finishing, asked := true }).ask (.programCompletion s.ckpt.target)
      else s
  else s

/-- The pre-erase of a slot begins: the engine is ERASING, the slot is ERASING with nothing noted, and the erase of data sector
0 is asked for (R98). -/
def State.preErase (s : State) (slot : SlotId) : State :=
  (s.setCkpt { (s.ckpt.putSlot slot { SlotEntry.unknown with state := .erasing }) with
    state := .erasing, target := slot, erased := 0 }).ask (.eraseSector slot 0)

/-- The pre-erase starts whenever the engine is IDLE, the erase hold is clear and the inactive slot is INVALID or COMPLETE
(R98). -/
def State.startPreErase (s : State) : State :=
  let slot := s.ckpt.inactive
  let st := (s.ckpt.slot slot).state
  if s.ckpt.state = .idle ∧ ¬ s.ckpt.hold ∧ (st = .invalid ∨ st = .complete) then s.preErase slot else s

/-- The erase hold clears, and the pre-erase of the inactive slot starts from the beginning (R98, R99). Where that slot is ERASED
the pre-erase that the fault had stopped starts again on its own slot (log entry 54). -/
def State.clearHold (s : State) : State :=
  if s.ckpt.hold then
    let t := s.setCkpt { s.ckpt with hold := false }
    if s.ckpt.state = .idle ∧ (s.ckpt.slot s.ckpt.inactive).state = .erased then t.preErase s.ckpt.target
    else t.startPreErase
  else s

/-- The generation a snapshot takes (R100): the highest seen plus 1; past 4294967295 a FREE VALUE (log entry 6). -/
def State.nextGeneration (s : State) : Word :=
  if s.ckpt.highest = BitVec.allOnes 32 then Config.generationAfterLast s.free else s.ckpt.highest + 1

/-- A snapshot opens for cycle `n` into the inactive slot (R100). -/
def State.openSnapshot (s : State) (n : Half) : State :=
  let pages := s.checkpointedPages
  let s := s.mapPages (fun r => { r with uncaptured := true, written := false }) pages
  let start := s.journal.next
  let s := s.journalOpens
  let g := s.nextGeneration
  let s := if s.ckpt.highest = BitVec.allOnes 32 then s.setFree (s.free + 1) else s
  let slot := s.ckpt.inactive
  let s := s.setCkpt { (s.ckpt.putSlot slot { state := .writing, generation := some g, cycle := some n, start := some start }) with
    state := .capturing, highest := g, buffer := [], cycle := some n, start := some start, captured := 0,
    toCapture := pages.length, target := slot, begun := false, asked := true }
  s.ask (.programBegin slot { generation := g, cycle := n, start := start })

/-- The page a capture grant takes, with its kind (R101): the forced page if it is SOUND or STALE; otherwise the lowest
uncaptured page that is. -/
def State.captureChoice (s : State) : Option (Nat × Bool) :=
  let ready := fun p => decide ((s.page p).state = .sound) || decide ((s.page p).state = .stale)
  let orderly := (s.uncapturedPages.find? ready).map (fun p => (p, false))
  match s.forcedPage with
  | some p => if ready p then some (p, true) else orderly
  | none => orderly

/-- The UNSET uncaptured pages below an orderly choice are dealt with (R101). -/
def State.passUnsetBelow (s : State) (p : Nat) : State :=
  let pages := s.uncapturedPages.filter (fun q => decide (q < p) && decide ((s.page q).state = .unset))
  let s := s.mapPages (fun r => { r with uncaptured := false }) pages
  s.setCkpt { s.ckpt with captured := s.ckpt.captured + pages.length }

/-- One capture grant (R101, R102). -/
def State.captureGrant (s : State) (ups : List Upset) : State :=
  match s.captureChoice with
  | none => s
  | some (p, forced) =>
    let s := if forced then s else s.passUnsetBelow p
    let x := scanPage (fun _ => false) p (s.strike ups)
    let s := x.1
    let r := x.2
    if r.bad = [] then
      let s := s.mapPage p (fun q => { q with uncaptured := false })
      let s := s.setCkpt { s.ckpt with
        buffer := s.ckpt.buffer ++ [{ page := p, cells := r.values, forced := forced }], captured := s.ckpt.captured + 1 }
      if r.corrected = 0 then s else s.raise .corrected (FaultKind.corrected.weight * r.corrected)
    else s.handOn p r

/-- The completion event (R105). -/
def State.completeCheckpoint (s : State) : State :=
  let slot := s.ckpt.target
  let old := otherSlot slot
  let g := (s.ckpt.slot slot).generation
  let c := s.ckpt.putSlot slot { s.ckpt.slot slot with state := .complete }
  let c := if (c.slot old).state = .complete then c.putSlot old { c.slot old with state := .invalid } else c
  let s := s.setCkpt { c with state := .idle, cycle := none, start := none, captured := 0, toCapture := 0, begun := false,
                              asked := false }
  let s := s.journalCompletes slot g
  s.mapPages (fun r => { r with dirty := r.written }) s.checkpointedPages

/-! ### Restore engine -/

/-- The pages of the region an accepted FILL fills, until the event that sends its reply (R14, R112), those it has written among
them (log entry 66). -/
def State.fillRegion (s : State) : List Nat :=
  match s.link.job with
  | some (.fill _ _ pages _) => pages
  | _ => []

/-- A restore begins for a page (R6): RESTORING, its listed cells off the suspect list, suspect-all set; a received page is no
longer current (R133). -/
def State.beginRestore (s : State) (page : Nat) : State :=
  ((s.mapPage page (fun r => { r with state := .restoring, suspectAll := true })).clearSuspects page).lostReceived page

/-- A page restore fails (R117): SUSPECT with suspect-all set, RESTORE_FAILED with its TRANSFER frame, no current operation. -/
def State.failPageRestore (s : State) (page : Nat) (slot : Option SlotId) (why : Reason) : State :=
  let s := s.mapPage page (fun r => { r with state := .suspect })
  let s := s.setRest { s.rest with op := .none }
  (s.raise .restoreFailed FaultKind.restoreFailed.weight).placeFrame
    (.transfer .restoreFailed .pageRestore (some page) slot 0 why)

/-- The engine takes a SUSPECT or STALE page (R114). -/
def State.startPageRestore (s : State) (page : Nat) : State :=
  let s := s.beginRestore page
  match s.ckpt.active with
  | some slot =>
    if s.isCheckpointed page then
      (s.setRest { s.rest with op := .page page slot (s.ckpt.slot slot).generation none }).ask (.readPage false slot page)
    else s.failPageRestore page none .noCheckpoint
  | none => s.failPageRestore page none .noCheckpoint

/-- The engine takes the oldest eligible page whenever its current operation is none, and looks again after a page it removes
without a restore or whose restore fails at once (R112, R117). -/
def takeRestores : Nat → State → State
  | 0, s => s
  | n + 1, s =>
    if s.rest.op ≠ .none then s
    else
      match s.rest.list.find? (fun p => !s.fillRegion.contains p) with
      | none => s
      | some p =>
        let s := s.setRest { s.rest with list := setDrop p s.rest.list }
        if (s.page p).state = .suspect ∨ (s.page p).state = .stale then takeRestores n (s.startPageRestore p)
        else takeRestores n s

def State.restoresTake (s : State) : State := takeRestores s.rest.list.length s

/-- The result of an array read of a page's place (R92), where `lost` says that its page check does not hold. -/
def State.readPlace (s : State) (slot : SlotId) (page : Nat) : Place := (s.array.slot slot).place page

/-- Why a read gives no values for a page (R114), or the values. -/
def placeResult (page : Nat) : Place → Except Reason (List Word)
  | .erased => .error .notCaptured
  | .checkFailure => .error .array
  | .record p cells => if p = page then .ok cells else .error .array

/-- The journal records of a page, in sequence order, applied over its record (R116). -/
def replayOver (s : State) (page : Nat) : List JournalRecord → State
  | [] => s
  | r :: rest =>
    if r.page = page then replayOver (s.writeRun (cellAddr page r.offset) r.values) page rest else replayOver s page rest

/-- A restored page is left in state `st`, with suspect-all clear (R116, R121). -/
def State.leaveRestored (s : State) (page : Nat) (st : PageState) : State :=
  s.mapPage page (fun r => { r with state := st, suspectAll := false })

/-- The decision of R116 at the restore-write grant of a page restore. -/
inductive RestoreAction where
  | replay
  | plain
  | stale
  | fails
deriving DecidableEq, Repr

def restoreAction (journalled covered dirty : Bool) : RestoreAction :=
  match journalled, covered, dirty with
  | true, true, _ => .replay
  | true, false, false => .plain
  | true, false, true => .fails
  | false, _, false => .plain
  | false, _, true => .stale

/-- The restore-write grant of a page restore (R115, R116). Whether the region is still checkpointed is tested before the slot
(log entry 48). -/
def State.pageRestoreGrant (s : State) (page : Nat) (slot : SlotId) (generation : Option Word) (cells : List Word) :
    State :=
  match s.ckpt.active with
  | none => s.failPageRestore page none .noCheckpoint
  | some now =>
    if !s.isCheckpointed page then s.failPageRestore page none .noCheckpoint
    else if now ≠ slot ∨ (s.ckpt.slot now).generation ≠ generation then
      (s.setRest { s.rest with op := .page page now (s.ckpt.slot now).generation none }).ask (.readPage false now page)
    else
      let ended := s.setRest { s.rest with op := .none }
      match restoreAction (s.isJournalled page) (s.journal.covers slot generation) (s.page page).dirty with
      | .replay =>
        (replayOver (ended.writeRun (cellAddr page 0) cells) page s.journal.records).leaveRestored page .sound
      | .plain => (ended.writeRun (cellAddr page 0) cells).leaveRestored page .sound
      | .stale => (ended.writeRun (cellAddr page 0) cells).leaveRestored page .stale
      | .fails => s.failPageRestore page (some slot) .noJournal

/-- An image restore ends (R122). -/
def State.endImage (s : State) (i : ImageRestore) : State :=
  let s := s.setRest { s.rest with
    op := .none,
    last := some { slot := i.slot, generation := i.generation, cycle := i.cycle, replay := i.replay, done := i.done,
                   failed := i.failed, firstFailed := i.firstFailed } }
  match i.firstFailed with
  | none => s
  | some (p, why) =>
    (s.raise .restoreFailed FaultKind.restoreFailed.weight).placeFrame
      (.transfer .restoreFailed .imageRestore (some p) (some i.slot) 0 why)

/-- The image restore goes on to its next page: one an APPLY has unmapped is passed over (R123); with none left it ends. -/
def State.imageGoesOn (s : State) (i : ImageRestore) : State :=
  match i.todo.dropWhile (fun p => (s.page p).state != .restoring) with
  | [] => s.endImage i
  | p :: rest =>
    (s.setRest { s.rest with op := .image { i with todo := p :: rest, cells := none } }).ask (.readPage true i.slot p)

/-- One page of an image restore failed (R121). -/
def State.imageFails (s : State) (i : ImageRestore) (page : Nat) (why : Reason) : State :=
  let s := s.mapPage page (fun r => { r with state := .suspect })
  s.imageGoesOn { i with
    todo := i.todo.tail, failed := i.failed + 1,
    firstFailed := match i.firstFailed with
      | none => some (page, why)
      | some x => some x }

/-- The restore-write grant of an image restore (R121). A page left mapped and no longer checkpointed is still written (log
entry 49). -/
def State.imageRestoreGrant (s : State) (i : ImageRestore) (cells : List Word) : State :=
  match i.todo with
  | [] => s.endImage i
  | p :: rest =>
    if (s.page p).state ≠ .restoring then s.imageGoesOn { i with todo := rest }
    else
      let covered := s.journal.covers i.slot i.generation
      let t := s.writeRun (cellAddr p 0) cells
      let t := if s.isJournalled p && covered then replayOver t p s.journal.records else t
      let t := t.mapPage p (fun r => { r with state := .sound, suspectAll := false, dirty := false })
      t.imageGoesOn { i with todo := rest, done := i.done + 1 }

/-! ### Transfer engine, donor's side -/

/-- The next pass begins (R130). -/
def State.beginPass (s : State) : State :=
  if Config.passLimit ≤ s.xfer.pass then s.endDonation (some .noConverge) none 0 .noConverge
  else s.setXfer { s.xfer with pass := s.xfer.pass + 1, plan := s.xfer.resend, resend := [], caughtUp := false }

/-- With the plan exhausted the donor looks at its resend set (R130). -/
def State.passTest (s : State) : State :=
  if s.xfer.role = .donor ∧ ¬ s.closingPassRuns ∧ s.xfer.plan = [] then
    if Config.closingPages < s.xfer.resend.length then s.beginPass
    else s.setXfer { s.xfer with caughtUp := true }
  else s

/-- The pages still owed at a close (R131). -/
def Transfer.owed (x : Transfer) : List Nat := setUnion x.plan x.resend

/-- With the closing list empty JOIN-FINAL is sent, the hold is released and the donation ends normally (R131). -/
def State.sendFinal (s : State) : State :=
  match s.lane.close with
  | none => s
  | some c =>
    if c.stage = .closingPass ∧ s.xfer.role = .donor ∧ s.xfer.closing = [] then
      ((s.handPartner (.joinFinal c.cycle (c.signature.getD 0))).clearTransfer).releaseHold
    else s

/-- A closing page cannot be sent: the closing pass is abandoned (R131). -/
def State.abandonClosingPass (s : State) : State :=
  let s := s.setXfer { s.xfer with resend := setUnion s.xfer.closing s.xfer.resend, closing := [] }
  s.releaseHold.beginPass

/-- The page a transfer-out grant takes (R128). -/
def State.transferPage (s : State) : Option Nat :=
  if s.closingPassRuns then s.xfer.closing.head? else s.xfer.plan.head?

/-- One transfer-out grant (R128). -/
def State.transferOutGrant (s : State) (ups : List Upset) : State :=
  match s.transferPage with
  | none => s
  | some p =>
    let closing := s.closingPassRuns
    let s := if closing then s.setXfer { s.xfer with closing := s.xfer.closing.tail }
             else s.setXfer { s.xfer with plan := s.xfer.plan.tail }
    let owe := fun (s : State) => s.setXfer { s.xfer with resend := setAdd p s.xfer.resend }
    if (s.page p).state = .sound ∨ (s.page p).state = .stale then
      let x := scanPage (fun _ => false) p (s.strike ups)
      if x.2.bad = [] then
        let s := x.1.handPartner (.page p x.1.xfer.pass x.2.values)
        let s := s.setXfer { s.xfer with sent := setAdd p s.xfer.sent, resend := setDrop p s.xfer.resend }
        if x.2.corrected = 0 then s else s.raise .corrected (FaultKind.corrected.weight * x.2.corrected)
      else
        let s := (owe x.1).handOn p x.2
        if closing && decide (s.xfer.role = .donor) then s.abandonClosingPass else s
    else
      let s := owe s
      if closing then s.abandonClosingPass else s

/-! ### Transfer engine, receiver's side -/

/-- The lowest signed page that is not in the received set (R135). -/
def State.missingPage (s : State) : Option Nat := s.signedPages.find? (fun p => !s.xfer.received.contains p)

/-- One transfer-in grant (R132, R7). -/
def State.transferInGrant (s : State) (x : InPage) (rest : List InPage) : State :=
  let s := s.writeRun (cellAddr x.page 0) x.cells
  let s := s.clearSuspects x.page
  let s := s.mapPage x.page (fun r => { r with state := .sound, suspectAll := false, dirty := true, written := true })
  s.setXfer { s.xfer with received := setAdd x.page s.xfer.received, inbound := rest }

end Sys2Proof.Machine
end

