-- ==== Sys2Proof/Machine/Agreement.lean ====
section
/-! DEFINITION. The signature arithmetic (4.4), the signature pass and the steps of a close (4.2), the vote (5.3), and the join
check at a receiver (8.4.1). -/

namespace Sys2Proof.Machine

/-! ### Signature arithmetic (R63 to R66) -/

/-- One symbol fed into the running pair (R63). -/
def feedSymbol (ab : Nat × Nat) (x : Nat) : Nat × Nat :=
  ((ab.1 + x + 1) % Config.signatureModulus,
   (ab.2 + (ab.1 + x + 1) % Config.signatureModulus) % Config.signatureModulus)

/-- A cell feeds its low half, then its high half (R63). -/
def feedCell (ab : Nat × Nat) (v : Word) : Nat × Nat := feedSymbol (feedSymbol ab (v.toNat % 65536)) (v.toNat / 65536)

/-- The seed for cycle `n` of station `s` (R64). -/
def seedPair (n : Half) (s : Nat) : Nat × Nat := (n.toNat % Config.signatureModulus, s)

/-- A pair reported as a number (R65, R66). -/
def pairNumber (ab : Nat × Nat) : Word := BitVec.ofNat 32 (ab.2 * 65536 + ab.1)

/-- The cycle signature from the region results in ascending region number (R66). -/
def cycleSignature (seed : Nat × Nat) (results : List (Nat × Nat × Nat)) : Word :=
  pairNumber (results.foldl (fun ab r => feedSymbol (feedSymbol ab r.2.1) r.2.2) seed)

/-- The region signatures as a cycle record holds them (R61, R65). -/
def regionSignatures (results : List (Nat × Nat × Nat)) : List (Nat × Word) :=
  results.map (fun r => (r.1, pairNumber r.2))

/-- Regions in ascending region number. -/
def insertRegion (r : Region) : List Region → List Region
  | [] => [r]
  | x :: rest => if r.number < x.number then r :: x :: rest else x :: insertRegion r rest

def sortRegions (rs : List Region) : List Region := rs.foldr insertRegion []

/-- The pages of a region as steps of a pass. -/
def regionSteps (r : Region) : List SignStep :=
  (List.range (r.last + 1 - r.first)).map (fun i =>
    { region := r.number, page := r.first + i, first := decide (i = 0), last := decide (r.first + i = r.last) })

/-- The pages a pass reads: signed regions in ascending region number, pages ascending within each (R56). -/
def State.signPlan (s : State) : List SignStep :=
  (sortRegions (s.regions.filter (fun r => r.signed))).flatMap regionSteps

/-- The signature unit begins for cycle `n`: the pair is seeded and the results are emptied (R56). -/
def State.beginSigning (s : State) (n : Half) : State :=
  s.setSign { a := (seedPair n s.station).1, b := (seedPair n s.station).2, results := [], todo := s.signPlan }

/-- The pair after a page's cells, with the region number fed before a region's first page (R65). -/
def pageFed (ab : Nat × Nat) (st : SignStep) (values : List Word) : Nat × Nat :=
  values.foldl feedCell (if st.first then feedSymbol ab st.region else ab)

/-- One page is fed; at a region's last page the region result is stored and the pair reseeded (R56). -/
def State.feedPage (s : State) (n : Half) (st : SignStep) (values : List Word) : State :=
  let ab := pageFed (s.sign.a, s.sign.b) st values
  if st.last then
    s.setSign { a := (seedPair n s.station).1, b := (seedPair n s.station).2,
                results := s.sign.results ++ [(st.region, ab)], todo := s.sign.todo.tail }
  else s.setSign { s.sign with a := ab.1, b := ab.2, todo := s.sign.todo.tail }

/-- The cycle signature of a computation whose pages have all been fed. -/
def State.ownSignature (s : State) (n : Half) : Word := cycleSignature (seedPair n s.station) s.sign.results

/-- A computation that stops discards its pair and results and records the cause (R57; log entries 29 and 52). -/
def State.dropSigning (s : State) (why : StopCause) : State :=
  s.setSign { a := 0, b := 0, results := [], todo := [], stop := some why }

/-- A page that may be signed, captured or sent as it stands. -/
def State.readable (s : State) (p : Nat) : Bool := (s.page p).state = .sound || (s.page p).state = .stale

/-! ### The vote (R77 to R83) -/

/-- The signature with which a peer votes in the vote for cycle `n` (R79), none when it is no voter. -/
def Peer.voteFor (p : Peer) (n : Half) : Option Word :=
  match p.pending with
  | none => none
  | some a =>
    if a.cycle = n ∧ a.abstain = false ∧ (a.state = some .forming ∨ a.state = some .active) then a.signature else none

/-- The outcome read from the voters' signatures, own first (R80, R81). -/
def voteOutcome (active : Bool) (own one two : Option Word) : VoteOutcome :=
  match own, one, two with
  | some g, some x, some y =>
    if g = x ∧ g = y then .agree
    else if g = x ∨ g = y then .majority
    else if x = y then .diverged
    else .noMajority
  | some g, some x, none => if g = x then .agree else .pairDisagree
  | some g, none, some y => if g = y then .agree else .pairDisagree
  | some _, none, none => .alone
  | none, some x, some y => if active then (if x = y then .abstained else .noMajority) else .abstained
  | none, some _, none => if active then .alone else .abstained
  | none, none, some _ => if active then .alone else .abstained
  | none, none, none => if active then .alone else .abstained

/-- The lane state after a decision taken in ACTIVE (R80). -/
def afterActive : VoteOutcome → LaneState
  | .diverged => .excluded
  | .noMajority => .halted
  | .pairDisagree => .halted
  | .alone => .halted
  | _ => .active

/-- The lane state after a decision taken in FORMING (R81). -/
def afterForming : VoteOutcome → LaneState
  | .agree => .active
  | .majority => .active
  | .diverged => .standby
  | .activePeerSeen => .standby
  | _ => .forming

/-- The kind an outcome raises (R80, R81). -/
def outcomeKind : VoteOutcome → Option FaultKind
  | .majority => some .peerDiverged
  | .diverged => some .diverged
  | .noMajority => some .noMajority
  | .pairDisagree => some .pairDisagree
  | .alone => some .alone
  | _ => none

/-- A peer is MISSING at a decision by expiry (R78). -/
def Peer.missing (p : Peer) : Bool := p.expected && p.pending.isNone

/-- A peer's entry of the cycle record as the decision writes it (R78, R79, R83 step 1). A peer with a pending
announcement is ON_TIME, be it expected or not (log entry 57). `byState` says that a STATE of this peer brought the decision,
which records it as NOT_EXPECTED (R82; log entry 53). -/
def decidedNote (byExpiry byState : Bool) (p : Peer) (n : PeerNote) : PeerNote :=
  match p.pending with
  | some a =>
    { n with arrival := if byState then .notExpected else .onTime, state := a.state, signature := a.signature }
  | none => { n with arrival := if byExpiry && p.expected then .missing else .notExpected }

/-- The silent count of a missing peer rises, and at 3 the peer is lost (R78). -/
def Peer.silence (p : Peer) : Peer :=
  let n := min Config.silentLimit (p.silent + 1)
  { p with silent := n, lost := p.lost || decide (n = Config.silentLimit) }

/-- A peer whose signature differs is taken as EXCLUDED (R80). -/
def Peer.exclude (own : Option Word) (n : Half) (p : Peer) : Peer :=
  match p.voteFor n with
  | none => p
  | some x => if own = some x then p else { p with known := some .excluded }

/-- The CLOSING frame of a decision, from the newest cycle record (R147). -/
def State.closingFrame (s : State) (k : FaultKind) : FaultFrame :=
  match s.lane.history.getLast? with
  | some r => .closing k r.cycle r.signature r.peer1 r.peer2 r.outcome
  | none => s.withdrawnFrame

/-- Step 5 of a decision: each pending slot is consumed and the early announcement moves up (R76). -/
def Peer.consume (p : Peer) : Peer := { p with pending := p.early, early := none }

/-- What a decision writes before it moves the lane: the vote is decided, the timer stops, the record takes the outcome and the
peers' parts (R83 step 1), silent counts rise (R78), and a differing peer of an ACTIVE lane's MAJORITY is taken as EXCLUDED
(R80). -/
def State.writeDecision (s : State) (c : Close) (byExpiry : Bool) (brought : Option PortId) (out : VoteOutcome) :
    State :=
  let one := s.lane.peer1
  let two := s.lane.peer2
  let s := s.setLane { s.lane with
    window := none,
    close := some { c with vote := .settled },
    history := mapLast (fun r => { r with
      outcome := out
      peer1 := decidedNote byExpiry (brought == some .one) one r.peer1
      peer2 := decidedNote byExpiry (brought == some .two) two r.peer2 })
      s.lane.history }
  let s := if byExpiry && one.missing then s.mapPeer .one Peer.silence else s
  let s := if byExpiry && two.missing then s.mapPeer .two Peer.silence else s
  if out = .majority ∧ s.lane.state = .active then s.mapPeers (Peer.exclude c.signature c.cycle) else s

/-- Step 3 of a decision: PEER_SILENT once for each of `n` missing peers, then the outcome's kind, then the one CLOSING frame
(R78, R80, R81, R83). -/
def State.raiseDecision (s : State) (out : VoteOutcome) (n : Nat) : State :=
  let s := s.raiseTimes .peerSilent FaultKind.peerSilent.weight n
  match outcomeKind out with
  | some k => (s.raise k k.weight).placeFrame (s.closingFrame k)
  | none =>
    if out = .abstained then s.placeFrame (s.closingFrame .abstained)
    else if 0 < n then s.placeFrame (s.closingFrame .peerSilent)
    else s

/-- A decision with outcome `out` (R83). `brought` is the port of the peer whose STATE brought a decision by R82. -/
def State.decideVote (s : State) (byExpiry : Bool) (brought : Option PortId) (out : VoteOutcome) : State :=
  match s.lane.close with
  | none => s
  | some c =>
    let was := s.lane.state
    let silent := if byExpiry then
        (if s.lane.peer1.missing then 1 else 0) + (if s.lane.peer2.missing then 1 else 0)
      else 0
    let s := s.writeDecision c byExpiry brought out
    let s := s.moveLane (if was = .active then afterActive out else if was = .forming then afterForming out else was)
    let s := s.raiseDecision out silent
    let s := if was = .active then
        s.setLane { s.lane with
          permitMark := (out = .agree || out = .majority) && s.lane.state = .active }
      else s
    (s.mapPeers Peer.consume).retireClose

/-- The outcome the pending slots give (R79 to R81). -/
def State.outcomeNow (s : State) (c : Close) : VoteOutcome :=
  voteOutcome (decide (s.lane.state = .active)) c.signature (s.lane.peer1.voteFor c.cycle) (s.lane.peer2.voteFor c.cycle)

/-- The vote is complete when every expected peer has an announcement in its pending slot (R77). -/
def State.voteComplete (s : State) : Bool := !s.lane.peer1.missing && !s.lane.peer2.missing

/-- Completeness is tested; a complete undecided vote is decided (R77). -/
def State.testVote (s : State) : State :=
  match s.lane.close with
  | none => s
  | some c => if c.vote = .running ∧ s.voteComplete then s.decideVote false none (s.outcomeNow c) else s

/-- A FORMING lane meets an ACTIVE peer (R82), by an ANNOUNCE or by a STATE on port `brought`. -/
def State.activePeerSeen (s : State) (brought : Option PortId) : State :=
  if s.votePending then s.decideVote false brought .activePeerSeen else s.moveLane .standby

/-! ### The steps of a close (R57, R58, R60) -/

/-- A stop in FORMING or ACTIVE: ABSTAINED, the abstain count, and the withdrawal at the limit (R57, R58). -/
def State.abstains (s : State) : State :=
  let s := s.raise .abstained FaultKind.abstained.weight
  let s := s.setLane { s.lane with abstain := min 7 (s.lane.abstain + 1) }
  if s.abstainLimit ≤ s.lane.abstain ∧ voting s.lane.state then s.selfWithdraw else s

/-- The cycle record of a close at its creation (R61), the own lane state as the pass's last grant has left it (log entry
46). -/
def State.newRecord (s : State) (c : Close) (sig : Option Word) (regions : Option (List (Nat × Word))) : CycleRecord :=
  let votes := voting s.lane.state
  let note := fun (p : Peer) =>
    ({ lane := p.lane, arrival := if votes then .awaited else .notExpected, state := none, signature := none } : PeerNote)
  { cycle := c.cycle, own := s.lane.state, signature := sig, regions := regions, peer1 := note s.lane.peer1,
    peer2 := note s.lane.peer2, outcome := if votes then .pending else .notVoted, checkpoint := false }

/-- Add a record to the history, dropping the oldest when 16 are held (R61). -/
def addHistory (h : List CycleRecord) (r : CycleRecord) : List CycleRecord :=
  if Config.historyRecords ≤ h.length then h.tail ++ [r] else h ++ [r]

/-- Step 1 of R60: the record, the announcement and the start of the vote, whose completeness is tested at once (R77). -/
def State.recordAndAnnounce (s : State) (c : Close) (sig : Option Word) (regions : Option (List (Nat × Word))) : State :=
  let r := s.newRecord c sig regions
  let s := s.setLane { s.lane with
    history := addHistory s.lane.history r, close := some { c with signature := sig } }
  if voting s.lane.state then
    let s := s.handBoth
      (.announce c.cycle s.lane.state sig sig.isNone s.pressure.p (decide (s.xfer.role = .donor)))
    let s := s.setLane { s.lane with
      window := some s.voteWindow, close := some { c with signature := sig, vote := .running } }
    s.testVote
  else s

/-- Step 2 of R60: the snapshot opens, and the record notes it. -/
def State.checkpointStep (s : State) (c : Close) (completed : Bool) : State :=
  if c.withCheckpoint && completed && decide (s.ckpt.state = .idle) &&
      decide ((s.ckpt.slot s.ckpt.inactive).state = .erased) then
    let s := s.openSnapshot c.cycle
    s.setLane { s.lane with history := mapLast (fun r => { r with checkpoint := true }) s.lane.history }
  else s

/-- Steps 3 to 6 of R60: the closing-pass decision (R131), and the release where none is begun. -/
def State.closingStep (s : State) (completed : Bool) : State :=
  match s.lane.close with
  | none => s
  | some c =>
    if s.xfer.role = .donor ∧ completed ∧ s.xfer.owed.length ≤ Config.closingPages then
      (s.setXfer { s.xfer with closing := s.xfer.owed, plan := [], resend := [], caughtUp := false }).setLane
        { s.lane with close := some { c with stage := .closingPass } }
    else
      let s := if s.xfer.role = .donor ∧ s.xfer.caughtUp ∧ s.xfer.resend ≠ [] then s.beginPass else s
      s.releaseHold

/-- The signature pass has ended (R60): completed, or stopped for a cause (R57), `fa` saying whether the lane was FORMING or
ACTIVE when the grant that ended it began (R57, R58; log entry 18). -/
def State.endPass (s : State) (stop : Option StopCause) (fa : Bool) : State :=
  match s.lane.close with
  | none => s
  | some c =>
    let completed := stop.isNone
    let sig := if completed then some (s.ownSignature c.cycle) else none
    let regions := if completed then some (regionSignatures s.sign.results) else none
    let s := match stop with
      | none => s
      | some why => s.dropSigning why
    let s := if fa then (if completed then s.setLane { s.lane with abstain := 0 } else s.abstains) else s
    ((s.recordAndAnnounce c sig regions).checkpointStep c completed).closingStep completed

/-- A raise of CORRECTED for `n` corrected cells, where there are any. -/
def State.raiseCorrected (s : State) (n : Nat) : State :=
  if n = 0 then s else s.raise .corrected (FaultKind.corrected.weight * n)

/-- One signature grant of a close's pass (R56, R57). -/
def State.signatureGrant (s : State) (ups : List Upset) : State :=
  match s.lane.close, s.sign.todo with
  | some c, st :: rest =>
    let fa := voting s.lane.state
    if s.readable st.page then
      let x := scanPage (fun _ => false) st.page (s.strike ups)
      if x.2.bad = [] then
        let s := (x.1.feedPage c.cycle st x.2.values).raiseCorrected x.2.corrected
        if rest = [] then s.endPass none fa else s
      else (x.1.handOn st.page x.2).endPass (some .newUncorrectable) fa
    else s.endPass (some .unsignablePage) fa
  | _, _ => s

/-- The pass begins when the queue holds no closing entry (R55). -/
def State.beginClosePass (s : State) : State :=
  match s.lane.close with
  | none => s
  | some c =>
    if c.stage = .draining ∧ s.queue.entries.all (fun e => !e.closing) then
      let s := (s.setLane { s.lane with close := some { c with stage := .signing } }).beginSigning c.cycle
      if s.sign.todo = [] then s.endPass none (voting s.lane.state) else s
    else s

/-! ### The check of a JOIN-FINAL (R135, R136) -/

/-- A join completes for cycle `n` (R136). -/
def State.joinCompletes (s : State) (n : Half) : State :=
  let s := s.clearTransfer
  let s := s.setLane { s.lane with lastClosed := n, abstain := 0 }
  s.breakJournal.moveLane .active

/-- The computation has completed (R135). -/
def State.finishCheck (s : State) : State :=
  match s.xfer.final with
  | none => s
  | some (n, sig) =>
    match s.missingPage with
    | some p => s.endReception false (some p) .missingPages
    | none => if s.ownSignature n = sig then s.joinCompletes n else s.endReception false none .mismatch

/-- The check waits until the inbound list is empty, and then tests the received set and begins the computation (R135). -/
def State.beginCheck (s : State) : State :=
  match s.xfer.final with
  | none => s
  | some (n, _) =>
    if s.xfer.role = .receiver .checking ∧ ¬ s.xfer.checkBegun ∧ s.xfer.inbound = [] then
      match s.missingPage with
      | some p => s.endReception false (some p) .missingPages
      | none =>
        let s := (s.setXfer { s.xfer with checkBegun := true }).beginSigning n
        if s.sign.todo = [] then s.finishCheck else s
    else s

/-- The computation stops at page `p` (R135, R57). -/
def State.stopCheck (s : State) (why : StopCause) (p : Nat) : State :=
  (s.dropSigning why).endReception false (some (s.missingPage.getD p)) .missingPages

/-- One signature grant of a join check (R135). -/
def State.joinCheckPage (s : State) (ups : List Upset) : State :=
  match s.xfer.final, s.sign.todo with
  | some (n, _), st :: rest =>
    if s.readable st.page then
      let x := scanPage (fun _ => false) st.page (s.strike ups)
      if x.2.bad = [] then
        let s := (x.1.feedPage n st x.2.values).raiseCorrected x.2.corrected
        if rest = [] then s.finishCheck else s
      else (x.1.handOn st.page x.2).stopCheck .newUncorrectable st.page
    else s.stopCheck .unsignablePage st.page
  | _, _ => s

end Sys2Proof.Machine
end

