-- ==== Sys2Proof/Machine/ReadService.lean ====
section
/-! DEFINITION. The host's image access: the checks and the service of READ, READ ON and EXCHANGE (R9 to R13, R19), the posting of
a write (R17, R18), and the answers and waits of the host link interface (R156). -/

namespace Sys2Proof.Machine

/-! ### Answers -/

/-- The handling of a request ends with a status and a body; the reply is built at the end of the event (R156, R157). -/
def State.answer (s : State) (k : ReqKind) (tag : Byte) (st : Status) (b : ReplyBody) : State :=
  s.setLink { s.link with answer := some { kind := k.code, tag := tag, status := st, body := b } }

/-- A refusal: an empty body. -/
def State.refuse (s : State) (k : ReqKind) (tag : Byte) (st : Status) : State := s.answer k tag st .empty

/-- A request waits (R156). -/
def State.setJob (s : State) (j : Option Job) : State := s.setLink { s.link with job := j }

/-- The read cursor changes (R12). -/
def State.setCursor (s : State) (c : Option Cursor) : State := s.setLink { s.link with cursor := c }

/-! ### Checks -/

/-- The checks of R9 from order 4 on, made on a starting page: the refusal, if any. -/
def State.readRefusal (s : State) (page : Nat) : Option Status :=
  if !s.mapped page then some .unmapped
  else if (s.page page).state = .unset then some .pageUnset
  else if (s.page page).state = .restoring then some .pageBusy
  else none

/-- The checks of a WRITE (R17), which an EXCHANGE shares (R19). -/
def State.writeRefusal (s : State) (a : WriteArgs) : Option Status :=
  if 255 < a.page ∨ 63 < a.offset then some .badField
  else if a.values = [] ∨ 16 < a.values.length then some .badLength
  else if 64 < a.offset + a.values.length then some .span
  else if s.lane.state = .config then some .wrongState
  else if !s.mapped a.page then some .unmapped
  else if (s.page a.page).state = .unset then some .pageUnset
  else if s.isGuarded a.page ∧
      (s.lane.state = .joining ∨ s.lane.state = .excluded ∨ s.lane.state = .halted) then some .guarded
  else if Config.queueEntries ≤ s.queue.entries.length ∨
      Config.queueCells < queueCellCount s.queue.entries + a.values.length then some .queueFull
  else none

/-- An accepted WRITE or EXCHANGE becomes the entry at the tail of the queue (R18), and may begin a high-mark run (R22). -/
def State.postEntry (s : State) (a : WriteArgs) : State :=
  (s.setQueue { s.queue with
    entries := s.queue.entries ++
      [{ page := a.page, offset := a.offset, values := a.values, age := 0, closing := false }] }).updateRun

/-! ### Service of a read -/

/-- An entry covers a cell. -/
def Entry.covers (e : Entry) (addr : Nat) : Bool :=
  decide (cellAddr e.page e.offset ≤ addr) && decide (addr < cellAddr e.page e.offset + e.values.length)

/-- The newest queued value of a cell (R10). -/
def State.forwarded (s : State) (addr : Nat) : Option Word :=
  match s.queue.entries.reverse.find? (fun e => e.covers addr) with
  | none => none
  | some e => e.values[addr - cellAddr e.page e.offset]?

/-- The cells before the first one whose page is UNSET or RESTORING (R10). -/
def State.servable (s : State) (addr : Nat) : Bool :=
  (s.page (addr / 64)).state != .unset && (s.page (addr / 64)).state != .restoring

/-- The cells a read without wrap serves (R10). -/
def State.straightCells (s : State) (start count : Nat) : List Nat :=
  match s.regionOf (start / 64) with
  | none => []
  | some r =>
    ((List.range (min (min count 64) (r.last * 64 + 64 - start))).map (fun i => start + i)).takeWhile s.servable

/-- The cell `i` places after `start` in the wrap order of its aligned group of `g` (R10). -/
def wrapCell (start g i : Nat) : Nat := start - start % g + (start % g + i) % g

/-- The cells a read with wrap group `g` serves (R10). -/
def wrapCells (start count g : Nat) : List Nat := (List.range (min count g)).map (wrapCell start g)

/-- The cells a read serves, in service order. -/
def State.readCells (s : State) (start count wrap : Nat) : List Nat :=
  if wrap = 0 then s.straightCells start count else wrapCells start count wrap

/-- The cursor after a read has been served (R12); one that served no cell leaves it at the starting cell (log entry 42). -/
def cursorAfter (start wrap served : Nat) : Cursor :=
  { addr := if wrap = 0 then start + served else wrapCell start wrap served, wrap := wrap }

/-- What a read has served so far: values and faulted positions in service order, the STALE flag, the corrected cells, and the
new uncorrectable cells as (page, offset), with the pages whose suspect-all flag was set. -/
structure ReadRun where
  values : List Word
  faulted : List Nat
  stale : Bool
  corrected : Nat
  found : List (Nat × Nat)
  overflow : List Nat
deriving DecidableEq, Repr

def ReadRun.empty : ReadRun :=
  { values := [], faulted := [], stale := false, corrected := 0, found := [], overflow := [] }

def ReadRun.serve (r : ReadRun) (v : Word) : ReadRun := { r with values := r.values ++ [v] }

def ReadRun.fault (r : ReadRun) : ReadRun :=
  { r with values := r.values ++ [faultedValue], faulted := r.faulted ++ [r.values.length] }

/-- A served cell is found newly uncorrectable (R5, R11): the suspect list, the page's state, its faults (R142, R44), and then
one auto-restore offer for the page (log entries 21 and 43). -/
def State.readFinding (s : State) (addr : Nat) (r : ReadRun) : State × ReadRun :=
  let p := addr / 64
  let o := offerSuspect p (addr % 64) s
  let s := (o.1.makeSuspect p).raise .uncorrectable FaultKind.uncorrectable.weight
  let s := if o.2 then s.raise .suspectOverflow FaultKind.suspectOverflow.weight else s
  let s := if s.isAutoRestore p ∧ !r.found.any (fun x => x.1 == p) then s.offerRestore p else s
  (s, { r.fault with found := r.found ++ [(p, addr % 64)], overflow := if o.2 then r.overflow ++ [p] else r.overflow })

/-- One served cell (R10, R11). The later cells of a page whose suspect-all flag this read has set are not checked (log entry
61). -/
def State.serveCell (s : State) (addr : Nat) (r : ReadRun) : State × ReadRun :=
  let p := addr / 64
  let r := { r with stale := r.stale || decide ((s.page p).state = .stale) }
  match s.forwarded addr with
  | some v => (s, r.serve v)
  | none =>
    if (s.page p).suspectAll || s.listed addr then (s, r.fault)
    else
      match (s.cell addr).damage with
      | .intact => (s, r.serve (s.cell addr).value)
      | .oneBit => (s.writeCell addr (s.cell addr).value,
                    { r.serve (s.cell addr).value with corrected := r.corrected + 1 })
      | .twoBits => s.readFinding addr r

/-- The served cells in service order. -/
def serveCells : List Nat → State × ReadRun → State × ReadRun
  | [], x => x
  | a :: rest, x => serveCells rest (x.1.serveCell a x.2)

/-- The ACCESS frame of a request (R146): the first page with a new uncorrectable cell, and the first 16 such cells of it. -/
def accessFrame (k : ReqKind) (cycle : Half) (r : ReadRun) (page : Nat) : FaultFrame :=
  .access (if r.overflow = [] then .uncorrectable else .suspectOverflow) k page
    (((r.found.filter (fun x => x.1 == page)).map Prod.snd).take 16) cycle

/-- What a served read hands on after its cells: CORRECTED with the count, and the request's one ACCESS frame (R11, R142,
R146; log entry 43). -/
def State.readFaults (s : State) (k : ReqKind) (cycle : Half) (r : ReadRun) : State :=
  let s := s.raiseCorrected r.corrected
  match r.found with
  | [] => s
  | x :: _ => s.placeFrame (accessFrame k cycle r x.1)

/-- The cycle open as the part stands (R146). -/
def State.openCycle (s : State) : Half := s.lane.lastClosed + 1

/-- The host read grant of a READ or READ ON (R10 to R13). Its starting page is not checked again at the grant (log entry 41);
`cycle` is the cycle open at the time of the request (R146). -/
def State.serveRead (s : State) (tag : Byte) (k : ReqKind) (start count wrap : Nat) (cycle : Half) (ups : List Upset) :
    State :=
  let s := (s.countHost.strike ups).setJob none
  let x := serveCells (s.readCells start count wrap) (s, ReadRun.empty)
  let s := x.1.readFaults k cycle x.2
  let s := s.setCursor (some (cursorAfter start wrap x.2.values.length))
  s.answer k tag .ok (.read x.2.stale x.2.faulted x.2.values)

/-- An exchange posts its new value and answers with the old one (R19). -/
def State.endExchange (s : State) (tag : Byte) (a : WriteArgs) (old : Word) (faulted stale : Bool) : State :=
  (s.postEntry a).answer .exchange tag .accepted (.exchange old faulted stale)

/-- The host read grant of an EXCHANGE, which then posts its entry (R19). -/
def State.serveExchange (s : State) (tag : Byte) (a : WriteArgs) (cycle : Half) (ups : List Upset) : State :=
  let s := (s.countHost.strike ups).setJob none
  let x := s.serveCell (cellAddr a.page a.offset) ReadRun.empty
  let s := x.1.readFaults .exchange cycle x.2
  s.endExchange tag a (x.2.values.headD faultedValue) (x.2.faulted != []) x.2.stale

/-- A read or exchange that waited for its grant is served when the arbiter gives it one, after the event that made the grant
possible has ended (R15, R16; log entry 9). -/
def State.serveDeferred (s : State) : State :=
  match s.link.job with
  | some (.read tag k start count wrap cycle ups) =>
    if s.pick = some .hostRead then s.eventOver.serveRead tag k start count wrap cycle ups else s
  | some (.exchange tag page offset value cycle false ups) =>
    if s.pick = some .hostRead then
      s.eventOver.serveExchange tag { page := page, offset := offset, values := [value] } cycle ups
    else s
  | _ => s

/-! ### Requests of chapter 1 and 2 -/

/-- A wrap group a READ may carry (R9). -/
def wrapValid (w : Nat) : Bool := w == 0 || w == 8 || w == 16 || w == 32 || w == 64

/-- What an admitted READ or READ ON asks of the store: its starting cell, count and wrap group. -/
structure ReadAsk where
  start : Nat
  count : Nat
  wrap : Nat
deriving DecidableEq, Repr

/-- An admitted read is served at once when a host-side request may be granted, and otherwise waits for its grant (R16). -/
def State.startRead (s : State) (tag : Byte) (k : ReqKind) (a : ReadAsk) (ups : List Upset) : State :=
  if s.hostTurn then s.serveRead tag k a.start a.count a.wrap s.openCycle ups
  else s.setJob (some (.read tag k a.start a.count a.wrap s.openCycle ups))

/-- The checks of a READ (R9). -/
def State.admitRead (s : State) (r : Request) : Except Status ReadAsk :=
  match readArgs r.body with
  | none => .error .badLength
  | some a =>
    if 255 < a.page ∨ 63 < a.offset ∨ !wrapValid a.wrap then .error .badField
    else if a.count = 0 then .error .badLength
    else if s.lane.state = .config then .error .wrongState
    else
      match s.readRefusal a.page with
      | some st => .error st
      | none => .ok { start := cellAddr a.page a.offset, count := a.count, wrap := a.wrap }

/-- The checks of a READ ON (R13). -/
def State.admitReadOn (s : State) (r : Request) : Except Status ReadAsk :=
  match oneByte r.body with
  | none => .error .badLength
  | some count =>
    match s.link.cursor with
    | none => .error .noCursor
    | some c =>
      if count = 0 then .error .badLength
      else if s.lane.state = .config then .error .wrongState
      else
        match s.readRefusal (c.addr / 64) with
        | some st => .error st
        | none => .ok { start := c.addr, count := count, wrap := c.wrap }

/-- READ (R9). -/
def State.onRead (s : State) (r : Request) (ups : List Upset) : State :=
  match s.admitRead r with
  | .error st => s.refuse .read r.tag st
  | .ok a => s.startRead r.tag .read a ups

/-- READ ON (R13). -/
def State.onReadOn (s : State) (r : Request) (ups : List Upset) : State :=
  match s.admitReadOn r with
  | .error st => s.refuse .readOn r.tag st
  | .ok a => s.startRead r.tag .readOn a ups

/-- WRITE (R17, R18). -/
def State.onWrite (s : State) (r : Request) : State :=
  let s := s.setCursor none
  match writeArgs r.body with
  | none => s.refuse .write r.tag .badLength
  | some a =>
    match s.writeRefusal a with
    | some st => s.refuse .write r.tag st
    | none => (s.postEntry a).refuse .write r.tag .accepted

/-- The checks of an EXCHANGE (R19), which are those of a WRITE of one value. -/
def State.admitExchange (s : State) (r : Request) : Except Status WriteArgs :=
  match exchangeArgs r.body with
  | none => .error .badLength
  | some a =>
    match s.writeRefusal a with
    | some st => .error st
    | none => .ok a

/-- The job of an EXCHANGE whose old value must come from the store (R19). -/
def State.exchangeJob (s : State) (tag : Byte) (a : WriteArgs) (held : Bool) (ups : List Upset) : Job :=
  .exchange tag a.page a.offset (a.values.headD 0) s.openCycle held ups

/-- EXCHANGE (R19). -/
def State.onExchange (s : State) (r : Request) (ups : List Upset) : State :=
  let s := s.setCursor none
  match s.admitExchange r with
  | .error st => s.refuse .exchange r.tag st
  | .ok a =>
    match s.forwarded (cellAddr a.page a.offset) with
    | some old => s.endExchange r.tag a old false false
    | none =>
      if (s.page a.page).state = .restoring then s.setJob (some (s.exchangeJob r.tag a true ups))
      else if s.hostTurn then s.serveExchange r.tag a s.openCycle ups
      else s.setJob (some (s.exchangeJob r.tag a false ups))

/-- FILL (R14). -/
def State.onFill (s : State) (r : Request) : State :=
  let s := s.setCursor none
  match fillArgs r.body with
  | none => s.refuse .fill r.tag .badLength
  | some (n, v) =>
    if 15 < n then s.refuse .fill r.tag .badField
    else if s.lane.state ≠ .standby then s.refuse .fill r.tag .wrongState
    else
      match s.regions.find? (fun x => x.number == n) with
      | none => s.refuse .fill r.tag .unmapped
      | some g =>
        let pages := (List.range (g.last + 1 - g.first)).map (fun i => g.first + i)
        if s.lane.close.isSome then s.refuse .fill r.tag .closePending
        else if s.inFlight then s.refuse .fill r.tag .engineBusy
        else if pages.any (fun p => decide ((s.page p).state = .restoring)) then s.refuse .fill r.tag .pageBusy
        else s.setJob (some (.fill r.tag v pages pages))

/-- One fill grant (R14): the page written, its record, the journal's break at the first page, the reply after the last. -/
def State.fillGrant (s : State) (tag : Byte) (v : Word) (pages : List Nat) (p : Nat) (rest : List Nat) : State :=
  let s := s.writeRun (cellAddr p 0) (List.replicate 64 v)
  let s := s.clearSuspects p
  let s := s.mapPage p (fun r => { r with state := .sound, dirty := true, written := true, suspectAll := false })
  let s := if s.isJournalled p then s.breakJournal else s
  if rest = [] then (s.setJob none).answer .fill tag .ok .empty else s.setJob (some (.fill tag v pages rest))

end Sys2Proof.Machine
end

