-- ==== Sys2Proof/Machine/Commissioning.lean ====
section
/-! DEFINITION. The commissioning unit (chapter 11): clamping, validity, the effects of an APPLY, and the ends of the commissioning
sector's erase and programs. -/

namespace Sys2Proof.Machine

/-- The record as put into use (R161). -/
def clampRecord (r : CommRecord) : CommRecord :=
  let h := min 8 (max 1 r.highMark)
  { r with
    voteWindow := max 1 r.voteWindow
    abstainLimit := min 7 (max 1 r.abstainLimit)
    patrolBase := max 1 r.patrolBase
    decayPeriod := max 1 r.decayPeriod
    highMark := h
    lowMark := min (h - 1) r.lowMark
    holdTime := max 1 r.holdTime
    retryLimit := if r.retryLimit < 4 then 2 else if r.retryLimit < 8 then 4 else if r.retryLimit < 16 then 8 else 16 }

/-- A failing rule with the region numbers it names (R162). -/
structure Failing where
  rule : FailingRule
  first : Option Nat
  second : Option Nat
deriving DecidableEq, Repr

/-- A region number above 15, or used by two entries (R162 order 5). -/
def badNumber (rs : List Region) (r : Region) : Bool :=
  decide (15 < r.number) || decide (1 < (rs.filter (fun x => x.number == r.number)).length)

/-- First page above last page, or last page above 255 (R162 order 6). -/
def badRange (r : Region) : Bool := decide (r.last < r.first) || decide (255 < r.last)

/-- Two entries share a page. -/
def shares (r x : Region) : Bool := decide (r.first ≤ x.last) && decide (x.first ≤ r.last)

/-- The first two entries in stored order that share a page (R162 order 7; log entry 22). -/
def overlapping : List Region → Option (Region × Region)
  | [] => none
  | r :: rest =>
    match rest.find? (shares r) with
    | some x => some (r, x)
    | none => overlapping rest

/-- Attributes that may not stand together (R162 order 8). -/
def badAttributes (r : Region) : Bool :=
  (r.signed && !r.journalled) || (r.journalled && !r.checkpointed) || (r.signed && !r.guarded)

/-- The failing rule of a record, or none for a valid one (R162 orders 2 to 9). -/
def failingRecord (r : CommRecord) : Option Failing :=
  if r.lane < 1 ∨ 3 < r.lane then some { rule := .lane, first := none, second := none }
  else if 4095 < r.station then some { rule := .station, first := none, second := none }
  else if r.regions = [] ∨ 16 < r.regions.length then some { rule := .regionCount, first := none, second := none }
  else
    match r.regions.find? (badNumber r.regions) with
    | some x => some { rule := .regionNumber, first := some x.number, second := none }
    | none =>
      match r.regions.find? badRange with
      | some x => some { rule := .pageRange, first := some x.number, second := none }
      | none =>
        match overlapping r.regions with
        | some (x, y) => some { rule := .overlap, first := some x.number, second := some y.number }
        | none =>
          match r.regions.find? badAttributes with
          | some x => some { rule := .attributes, first := some x.number, second := none }
          | none =>
            if r.regions.any (fun x => x.signed) then none
            else some { rule := .noSigned, first := none, second := none }

/-- The stored record's tests (R162): the record, or the failing rule. -/
def testStored : RecordPlace → Except Failing CommRecord
  | .erased => .error { rule := .noRecord, first := none, second := none }
  | .checkFailure => .error { rule := .noRecord, first := none, second := none }
  | .record r _ =>
    match failingRecord r with
    | none => .ok r
    | some f => .error f

/-- INVALID_CONFIG with its body. -/
def State.invalidConfig (s : State) (k : ReqKind) (tag : Byte) (f : Failing) : State :=
  s.answer k tag .invalidConfig (.failingRule f.rule f.first f.second)

/-- The failing rule of an array fault. -/
def arrayFailing : Failing := { rule := .array, first := none, second := none }

/-! ### Effects of an APPLY (R164) -/

/-- Pages the table in use leaves unmapped become UNSET with all marks clear, and leave the suspect list and the restore list
(R8); a page restore of such a page ends (R118), and its read, though it may still wait at the controller, is done and
discarded (log entry 59). -/
def State.dropUnmapped (s : State) : State :=
  let s := s.setPages (s.pages.filter (fun x => s.mapped x.1))
  let s := s.setSuspects (s.suspects.filter (fun a => s.mapped (a / 64)))
  let op := match s.rest.op with
    | .page p _ _ _ => if s.mapped p then s.rest.op else .none
    | x => x
  s.setRest { s.rest with list := s.rest.list.filter s.mapped, op := op }

/-- The patrol cursor under a new table (R40). -/
def cursorMoved (mapped : List Nat) (was : Option Nat) : Option Nat :=
  match was with
  | none => mapped.head?
  | some p =>
    match mapped.find? (fun q => decide (p ≤ q)) with
    | some q => some q
    | none => mapped.head?

/-- The peer entries as after power-on, with the lanes of the number in use (R72). -/
def State.freshPeers (s : State) : State :=
  s.setLane { s.lane with peer1 := Peer.fresh (s.laneOn .one), peer2 := Peer.fresh (s.laneOn .two) }

/-- The effects of an accepted APPLY (R164). -/
def State.putInUse (s : State) (r : CommRecord) : State :=
  let s := if s.ckpt.state = .capturing then s.abandonCheckpoint else s
  let s := s.setComm { s.comm with inUse := some (clampRecord r) }
  let s := s.dropUnmapped
  let s := s.setPatrol { s.patrol with cursor := cursorMoved s.mappedPages s.patrol.cursor }
  let s := s.breakJournal.freshPeers
  let s := s.setFaults { s.faults with mask := r.alertMask }
  s.moveLane .standby

/-- APPLY (R164). -/
def State.onApply (s : State) (r : Request) : State :=
  if s.lane.state ≠ .config then s.refuse .apply r.tag .wrongState
  else if s.lane.close.isSome then s.refuse .apply r.tag .closePending
  else
    match testStored s.comm.stored with
    | .error f => s.invalidConfig .apply r.tag f
    | .ok x => (s.putInUse x).refuse .apply r.tag .ok

/-- CONFIGURE (R165, R127). -/
def State.onConfigure (s : State) (r : Request) : State :=
  if s.lane.state ≠ .standby then s.refuse .configure r.tag .wrongState
  else if s.comm.locked then s.refuse .configure r.tag .locked
  else
    let s := if s.xfer.role = .receiver .asking then s.endReception true none .receiverLeft else s
    (s.moveLane .config).refuse .configure r.tag .ok

/-- READ COMMISSIONING (R163). -/
def State.onReadCommissioning (s : State) (r : Request) : State :=
  s.answer .readCommissioning r.tag .ok (.commissioning s.comm.stored s.comm.locked s.comm.inUse.isSome)

/-- WRITE COMMISSIONING (R163). -/
def State.onWriteCommissioning (s : State) (r : Request) : State :=
  if s.lane.state ≠ .config then s.refuse .writeCommissioning r.tag .wrongState
  else if s.comm.locked then s.refuse .writeCommissioning r.tag .locked
  else
    match commissioningArgs r.body with
    | none => s.refuse .writeCommissioning r.tag .badLength
    | some x => (s.setJob (some (.writeCommissioning r.tag x))).ask .eraseCommissioning

/-- LOCK COMMISSIONING (R165). -/
def State.onLock (s : State) (r : Request) : State :=
  if s.lane.state ≠ .config ∧ s.lane.state ≠ .standby ∧ s.lane.state ≠ .forming ∧ s.lane.state ≠ .active then
    s.refuse .lockCommissioning r.tag .wrongState
  else if s.comm.locked then s.refuse .lockCommissioning r.tag .ok
  else
    match testStored s.comm.stored with
    | .error f => s.invalidConfig .lockCommissioning r.tag f
    | .ok _ => (s.setJob (some (.lock r.tag))).ask .programLock

/-! ### Ends of the commissioning unit's array operations -/

/-- The operation in progress ends and its user asks for the next one in the same event, so that the controller chooses with
both before it (R94). -/
def State.opEndedAsking (s : State) (o : ArrayOp) : State :=
  (s.setCtl { s.ctl with op := none, waiting := s.ctl.waiting ++ [o] }).nextOp

/-- WRITE COMMISSIONING's job ends with a status, where it waits. -/
def State.endWriteJob (s : State) (fault : Bool) : State :=
  match s.link.job with
  | some (.writeCommissioning tag _) =>
    let s := s.setJob none
    if fault then s.invalidConfig .writeCommissioning tag arrayFailing else s.refuse .writeCommissioning tag .ok
  | _ => s

/-- The lock mark after a fault at its sector: a mark whose program or erase has failed counts as not programmed (R165). -/
def faultedLock : Field Unit → Field Unit
  | .whole _ => .damaged
  | x => x

/-- The sector's erase has ended (R92, R163). -/
def State.eraseDone (s : State) (left : Option CommLeft) : State :=
  let l := left.getD { record := .erased, lock := .erased, others := false }
  let s := s.setArray { s.array with record := l.record, lock := faultedLock l.lock }
  if l.record = .erased ∧ l.lock = .erased ∧ l.others = false then
    match s.link.job with
    | some (.writeCommissioning _ r) => s.opEndedAsking (.programRecord r)
    | _ => s.opEnded
  else ((s.setComm { s.comm with stored := .checkFailure }).opEnded).endWriteJob true

/-- The record's program has ended (R163). -/
def State.programDone (s : State) (r : CommRecord) (left : Option RecordPlace) : State :=
  let written := RecordPlace.record r (Config.recordCheck r)
  let now := usedRecord (left.getD (if s.array.record = .erased then written else .checkFailure))
  let good := decide (s.array.record = .erased) && decide (now = written)
  let s := s.setArray { s.array with record := now }
  let s := s.setComm { s.comm with stored := if good then written else .checkFailure }
  s.opEnded.endWriteJob (!good)

/-- The lock mark's program has ended (R165): after a fault the mark counts as not programmed, and its area can no longer be
programmed. -/
def State.lockDone (s : State) (left : Option (Field Unit)) : State :=
  let x := programField s.array.lock () left
  let s := s.setArray { s.array with lock := if x.2 then faultedLock x.1 else x.1 }
  let s := if x.2 then s else s.setComm { s.comm with locked := true }
  let s := s.opEnded
  match s.link.job with
  | some (.lock tag) =>
    let s := s.setJob none
    if x.2 then s.invalidConfig .lockCommissioning tag arrayFailing else s.refuse .lockCommissioning tag .ok
  | _ => s

end Sys2Proof.Machine
end

