-- ==== Sys2Proof/Machine/Requests.lean ====
section
/-! DEFINITION. The other host requests, one handler each (chapters 4 to 10), and the host link interface that tests a complete
request and hands it to its handler (R154 to R156). -/

namespace Sys2Proof.Machine

/-! ### Close, lane state, cycle history -/

/-- The status that refuses a CLOSE, if any (R53); a CLOSE with checkpoint is refused while the erase hold is set (R99; log
entry 54). -/
def State.closeRefusal (s : State) (n : Half) (option : Nat) : Option Status :=
  if 1 < option then some .badField
  else if s.lane.state = .config ∨ s.lane.state = .joining then some .wrongState
  else if s.lane.close.isSome then some .closePending
  else if voting s.lane.state ∧ n ≠ s.lane.lastClosed + 1 then some .cycleOrder
  else if option = 1 ∧ (s.ckpt.state ≠ .idle ∨ s.ckpt.hold ∨ (s.ckpt.slot s.ckpt.inactive).state ≠ .erased) then
    some .engineBusy
  else none

/-- The acceptance of a CLOSE (R55); it clears the erase hold, and the pre-erase starts again (R99). -/
def State.acceptClose (s : State) (n : Half) (withCheckpoint : Bool) : State :=
  let s := s.setFaults { s.faults with current := 0 }
  let s := s.setQueue { s.queue with entries := s.queue.entries.map (fun e => { e with closing := true }) }
  let s := s.setLane { s.lane with
    close := some { cycle := n, withCheckpoint := withCheckpoint, stage := .draining, vote := .notStarted,
                    signature := none } }
  s.clearHold

/-- CLOSE (R53, R55). -/
def State.onClose (s : State) (r : Request) : State :=
  match closeArgs r.body with
  | none => s.refuse .close r.tag .badLength
  | some (n, option) =>
    match s.closeRefusal n option with
    | some st => s.refuse .close r.tag st
    | none => (s.acceptClose n (option == 1)).refuse .close r.tag .accepted

/-- The record CYCLE RECORD gives: the newest, or the newest of a cycle (R62). -/
def State.findRecord (s : State) : Option Half → Option CycleRecord
  | none => s.lane.history.getLast?
  | some n => s.lane.history.reverse.find? (fun r => r.cycle == n)

/-- CYCLE RECORD (R62). -/
def State.onCycleRecord (s : State) (r : Request) : State :=
  match cycleRecordArgs r.body with
  | none => s.refuse .cycleRecord r.tag .badLength
  | some which =>
    match s.findRecord which with
    | none => s.refuse .cycleRecord r.tag .notFound
    | some x => s.answer .cycleRecord r.tag .ok (.cycleRecord x)

/-- ENTER (R86). -/
def State.onEnter (s : State) (r : Request) : State :=
  if s.lane.state ≠ .standby then s.refuse .enter r.tag .wrongState
  else if s.lane.close.isSome then s.refuse .enter r.tag .closePending
  else if s.xfer.role = .receiver .asking then s.refuse .enter r.tag .engineBusy
  else if Config.pressureAdmit ≤ s.pressure.p then s.refuse .enter r.tag .pressure
  else
    match s.signedPages.find? (fun p => decide ((s.page p).state = .unset)) with
    | some p => s.answer .enter r.tag .pageUnset (.failingPage p)
    | none =>
      match s.signedPages.find? (fun p => decide ((s.page p).state ≠ .sound)) with
      | some p => s.answer .enter r.tag .pageBusy (.failingPage p)
      | none =>
        ((s.setLane { s.lane with query := some false }).setJob (some (.enter r.tag))).handBoth .query

/-- The reason and the JOIN-ABORT of a reception that the receiver's host ends (R137). -/
def State.hostAborts (s : State) : State :=
  s.endReception (decide (s.xfer.role ≠ .receiver .checking)) none .receiverLeft

/-- WITHDRAW (R87). -/
def State.onWithdraw (s : State) (r : Request) : State :=
  if voting s.lane.state then (s.moveLane .excluded).refuse .withdraw r.tag .ok
  else if s.lane.state = .joining then s.hostAborts.refuse .withdraw r.tag .ok
  else if (s.lane.state = .standby ∨ s.lane.state = .excluded) ∧ s.xfer.role = .receiver .asking then
    s.hostAborts.refuse .withdraw r.tag .ok
  else s.refuse .withdraw r.tag .wrongState

/-- RESTART (R88); from EXCLUDED it ends a join that asks (R127). -/
def State.onRestart (s : State) (r : Request) : State :=
  match s.lane.state with
  | .forming => (s.moveLane .standby).refuse .restart r.tag .ok
  | .halted => (s.moveLane .standby).refuse .restart r.tag .ok
  | .excluded =>
    let t := if s.xfer.role = .receiver .asking then s.hostAborts else s
    (t.moveLane .standby).refuse .restart r.tag .ok
  | .joining => s.hostAborts.refuse .restart r.tag .ok
  | .config => s.refuse .restart r.tag .wrongState
  | .standby => s.refuse .restart r.tag .wrongState
  | .active => s.refuse .restart r.tag .wrongState

/-! ### Checkpoints and restores -/

/-- CANCEL CHECKPOINT (R106). -/
def State.onCancel (s : State) (r : Request) : State :=
  if s.ckpt.state = .capturing then s.abandonCheckpoint.refuse .cancelCheckpoint r.tag .ok
  else s.refuse .cancelCheckpoint r.tag .notRunning

/-- What CHECKPOINT STATUS shows (R109). -/
def State.checkpointView (s : State) : CheckpointView :=
  { state := s.ckpt.state, active := s.ckpt.active, slot0 := s.ckpt.slot0, slot1 := s.ckpt.slot1,
    captured := s.ckpt.captured, toCapture := s.ckpt.toCapture, occupancy := s.ckpt.buffer.length,
    erased := s.ckpt.erased, hold := s.ckpt.hold }

/-- CHECKPOINT STATUS (R109). -/
def State.onCheckpointStatus (s : State) (r : Request) : State :=
  s.answer .checkpointStatus r.tag .ok (.checkpointStatus s.checkpointView)

/-- The status that refuses a RESTORE PAGE before its offer, if any (R113). -/
def State.restoreRefusal (s : State) (p : Nat) : Option Status :=
  if 255 < p then some .badField
  else if s.lane.state = .config then some .wrongState
  else if !s.mapped p then some .unmapped
  else if !s.isCheckpointed p ∨ s.ckpt.active = none then some .noCheckpoint
  else if (s.page p).state ≠ .suspect ∧ (s.page p).state ≠ .stale then some .notNeeded
  else none

/-- RESTORE PAGE (R113), with its offer to the restore list (R111). -/
def State.onRestorePage (s : State) (r : Request) : State :=
  match oneByte r.body with
  | none => s.refuse .restorePage r.tag .badLength
  | some p =>
    match s.restoreRefusal p with
    | some st => s.refuse .restorePage r.tag st
    | none =>
      if s.rest.list.contains p then s.refuse .restorePage r.tag .accepted
      else if Config.restoreListPages ≤ s.rest.list.length then s.refuse .restorePage r.tag .listFull
      else (s.setRest { s.rest with list := s.rest.list ++ [p] }).refuse .restorePage r.tag .accepted

/-- Every page of the list begins a restore (R6, R120). -/
def beginRestores : List Nat → State → State
  | [], s => s
  | p :: rest, s => beginRestores rest (s.beginRestore p)

/-- The image restore that RESTORE IMAGE begins over a slot (R120). -/
def State.imagePlan (s : State) (slot : SlotId) : ImageRestore :=
  let e := s.ckpt.slot slot
  { slot := slot, generation := e.generation, cycle := e.cycle, replay := s.journal.covers slot e.generation,
    todo := s.checkpointedPages, cells := none, toDo := s.checkpointedPages.length, done := 0, failed := 0,
    firstFailed := none }

/-- RESTORE IMAGE (R119, R120). -/
def State.onRestoreImage (s : State) (r : Request) : State :=
  if s.lane.state ≠ .standby ∧ s.lane.state ≠ .excluded ∧ s.lane.state ≠ .halted then
    s.refuse .restoreImage r.tag .wrongState
  else
    match s.ckpt.active with
    | none => s.refuse .restoreImage r.tag .noCheckpoint
    | some slot =>
      if s.rest.op ≠ .none ∨ s.xfer.role ≠ .none ∨ s.inFlight then s.refuse .restoreImage r.tag .engineBusy
      else
        let i := s.imagePlan slot
        let t := beginRestores i.todo s
        let t := t.setRest { t.rest with list := t.rest.list.filter (fun p => !s.isCheckpointed p) }
        (t.imageGoesOn i).answer .restoreImage r.tag .accepted (.restoreImage slot i.generation i.cycle i.replay)

/-! ### Join -/

/-- The port that faces a lane, by the wiring rule (R68). -/
def State.portFacing (s : State) (lane : Nat) : PortId := if s.laneOn .one = some lane then .one else .two

/-- The restore engine's current operation is an image restore (R125). -/
def State.imageRuns (s : State) : Bool :=
  match s.rest.op with
  | .image _ => true
  | _ => false

/-- The status that refuses a JOIN, if any (R125). -/
def State.joinRefusal (s : State) (lane : Nat) : Option Status :=
  if lane < 1 ∨ 3 < lane ∨ s.laneNumber = some lane then some .badField
  else if s.lane.state ≠ .standby ∧ s.lane.state ≠ .excluded then some .wrongState
  else if s.lane.close.isSome then some .closePending
  else if s.xfer.role ≠ .none ∨ s.imageRuns ∨ s.inFlight then some .engineBusy
  else if Config.pressureAdmit ≤ s.pressure.p then some .pressure
  else none

/-- JOIN (R125). -/
def State.onJoin (s : State) (r : Request) : State :=
  match oneByte r.body with
  | none => s.refuse .join r.tag .badLength
  | some lane =>
    match s.joinRefusal lane with
    | some st => s.refuse .join r.tag st
    | none =>
      let p := s.portFacing lane
      let s := s.setXfer { s.xfer with role := .receiver .asking, partner := some (lane, p), idle := true }
      let s := s.mapPeer p (fun x => { x with relation := .donor })
      (s.hand p .joinAsk).refuse .join r.tag .accepted

/-! ### Fault store requests -/

/-- FAULT FRAME (R150). -/
def State.onFaultFrame (s : State) (r : Request) : State :=
  s.answer .faultFrame r.tag .ok
    (match s.faults.primary with
     | some f => .faultFrame s.faults.secondary.isSome s.faults.lost f
     | none => if s.faults.any then .clearFrame else .noFrame)

/-- RELEASE FAULT (R151). -/
def State.onReleaseFault (s : State) (r : Request) : State :=
  match s.faults.primary with
  | none => s.refuse .releaseFault r.tag .notHeld
  | some _ =>
    (s.setFaults { s.faults with
      primary := s.faults.secondary, secondary := none,
      lost := s.faults.lost && s.faults.secondary.isSome }).refuse .releaseFault r.tag .ok

/-- FAULT SETS (R152). -/
def State.onFaultSets (s : State) (r : Request) : State :=
  s.answer .faultSets r.tag .ok
    (.faultSets s.faults.current s.faults.accrued s.faults.mask s.faults.lost s.faults.any)

/-- CLEAR ACCRUED (R143). -/
def State.onClearAccrued (s : State) (r : Request) : State :=
  (s.setFaults { s.faults with current := 0, accrued := 0 }).refuse .clearAccrued r.tag .ok

/-- SET ALERT MASK (R144). -/
def State.onSetAlertMask (s : State) (r : Request) : State :=
  match kindSetOfCodes r.body with
  | none => s.refuse .setAlertMask r.tag .badField
  | some x => (s.setFaults { s.faults with mask := x }).refuse .setAlertMask r.tag .ok

/-! ### Status -/

/-- What STATUS shows (R159). -/
def State.statusView (s : State) : StatusView :=
  { state := s.lane.state, lastClosed := s.lane.lastClosed, lane := s.laneNumber, peer1 := s.lane.peer1,
    peer2 := s.lane.peer2, occupancy := s.queue.entries.length, cells := queueCellCount s.queue.entries,
    journal := s.journal.state, records := s.journal.records.length, next := s.journal.next,
    suspects := s.suspects.length, restoreList := s.rest.list.length, last := s.rest.last, role := s.xfer.role,
    partner := s.xfer.partner.map Prod.fst, pass := s.xfer.pass,
    pagesLeft := s.xfer.plan.length + s.xfer.closing.length, received := s.xfer.received.length,
    engine := s.ckpt.state, p := s.pressure.p }

/-- STATUS (R159). -/
def State.onStatus (s : State) (r : Request) : State := s.answer .status r.tag .ok (.status s.statusView)

/-! ### The host link interface -/

/-- A request that passes the tests of R155 reaches the handling of its kind. -/
def State.dispatch (s : State) (k : ReqKind) (r : Request) (ups : List Upset) : State :=
  match k with
  | .read => s.onRead r ups
  | .readOn => s.onReadOn r ups
  | .write => s.onWrite r
  | .exchange => s.onExchange r ups
  | .fill => s.onFill r
  | .close => s.onClose r
  | .cycleRecord => s.onCycleRecord r
  | .enter => s.onEnter r
  | .withdraw => s.onWithdraw r
  | .restart => s.onRestart r
  | .cancelCheckpoint => s.onCancel r
  | .checkpointStatus => s.onCheckpointStatus r
  | .restorePage => s.onRestorePage r
  | .restoreImage => s.onRestoreImage r
  | .join => s.onJoin r
  | .faultFrame => s.onFaultFrame r
  | .releaseFault => s.onReleaseFault r
  | .faultSets => s.onFaultSets r
  | .clearAccrued => s.onClearAccrued r
  | .setAlertMask => s.onSetAlertMask r
  | .status => s.onStatus r
  | .readCommissioning => s.onReadCommissioning r
  | .writeCommissioning => s.onWriteCommissioning r
  | .lockCommissioning => s.onLock r
  | .apply => s.onApply r
  | .configure => s.onConfigure r

/-- The tests of R155 on a complete request of a known kind: the refusal, if any. -/
def State.linkRefusal (s : State) (k : ReqKind) (r : Request) : Option Status :=
  if !requestSound k.code r then some .frameCheck
  else if s.phase ≠ .running then some .starting
  else if Config.bodyBytes < r.body.length ∨ !k.fits r.body then some .badLength
  else none

/-- The handling of a complete request (R155). -/
def State.handleRequest (s : State) (k : ReqKind) (r : Request) (ups : List Upset) : State :=
  match s.linkRefusal k r with
  | some st => s.refuse k r.tag st
  | none => s.dispatch k r ups

/-- The host link's phase changes, with whether the request in hand belongs to the open interval. -/
def State.setLinkPhase (s : State) (p : LinkPhase) : State := s.setLink { s.link with phase := p }

/-- A complete request whose kind byte names no kind (R155). -/
def State.handleUnknown (s : State) (kind : Byte) (r : Request) : State :=
  let st : Status :=
    if !requestSound kind r then .frameCheck else if s.phase ≠ .running then .starting else .unknownKind
  s.setLink { s.link with answer := some { kind := kind, tag := r.tag, status := st, body := .empty } }

/-- A complete request by its kind byte (R155). -/
def State.handleByte (s : State) (kind : Byte) (r : Request) (ups : List Upset) : State :=
  match ReqKind.ofCode kind with
  | some k => s.handleRequest k r ups
  | none => s.handleUnknown kind r

/-- A complete request is taken in RECEIVING: it is handled, or held behind a waiting one, or, with one held already, not taken
(R154, R156). In any other phase no request can be completed. -/
def State.takeByte (s : State) (kind : Byte) (r : Request) (ups : List Upset) : State :=
  if s.link.phase ≠ .receiving then s
  else
    match s.link.job with
    | none => (s.setLink { s.link with phase := .working, live := true }).handleByte kind r ups
    | some _ =>
      match s.link.second with
      | none => s.setLink { s.link with phase := .working, second := some (kind, r, ups), secondLive := true }
      | some _ => s.setLink { s.link with phase := .working }

/-- A complete request of a known kind. -/
def State.takeRequest (s : State) (k : ReqKind) (r : Request) (ups : List Upset) : State := s.takeByte k.code r ups

/-- The second request is handled in the event that ends the first, whose reply was lost with its interval (R156). -/
def State.takeSecond (s : State) : State :=
  match s.link.job, s.link.second with
  | none, some (kind, r, ups) =>
    (s.setLink { s.link with answer := none, second := none, live := s.link.secondLive, secondLive := false }).handleByte
      kind r ups
  | _, _ => s

end Sys2Proof.Machine
end

