-- ==== Sys2Proof/Machine/Settle.lean ====
section
/-! DEFINITION. What an event sets off in the blocks that wait for it, within the same event: a signature pass or join check that
can begin, a restore the engine can take, a checkpoint's failure or next program, a donation's next pass or end, a
high-mark run, a pre-erase; then a deferred host read, and a second request behind a finished one. -/

namespace Sys2Proof.Machine

/-- The blocks look at what the event has left (R55, R112, R103, R101, R104, R130, R131, R135, R22, R98). The
high-mark run is tested at the end of every event, an APPLY among them (log entry 55). -/
def State.settleBlocks (s : State) : State :=
  s.beginClosePass.restoresTake.sourceFault.passUnset.nextProgram.passTest.sendFinal.beginCheck.updateRun.startPreErase

/-- They do so while the part runs; before start-up completes no block acts (R97, R166). -/
def State.settle (s : State) : State := if s.phase = .running then s.settleBlocks else s

/-- A host read the arbiter can now grant, after the event that lets it, and then a request held behind one that has ended, whose reply shows a frame that is
owed by then (R157). -/
def State.afterwards (s : State) : State :=
  let s := match s.link.job with
    | some _ => s.serveDeferred.settle
    | none => s
  match s.link.job, s.link.second with
  | none, some _ => s.frameOwed.takeSecond.settle
  | _, _ => s

/-- One whole event that may reach other blocks. -/
def State.event (s : State) (f : State → State) : State := (f s).settle.afterwards.closeEvent

/-- One whole event that stays within its block, the fault store and the ports. -/
def State.plainEvent (s : State) (f : State → State) : State := (f s).closeEvent

end Sys2Proof.Machine
end

