-- ==== Sys2Proof/Machine/CheckpointEvents.lean ====
section
/-! DEFINITION. The commands of chapter 6: CANCEL CHECKPOINT, CHECKPOINT STATUS, capture grants, and the ends of the engine's
programs and erases. -/

namespace Sys2Proof.Machine

/-- CANCEL CHECKPOINT (R106). -/
def execCancelCheckpoint (r : Request) (s : State) : Host.Outcome State Fault Refusal :=
  .next (s.event (fun t => t.takeRequest .cancelCheckpoint r []))

/-- CHECKPOINT STATUS (R109). -/
def execCheckpointStatus (r : Request) (s : State) : Host.Outcome State Fault Refusal :=
  .next (s.plainEvent (fun t => t.takeRequest .checkpointStatus r []))

/-- CAPTURE (R101, R102): one capture grant. -/
def execCapture (ups : List Upset) (s : State) : Host.Outcome State Fault Refusal :=
  if s.pick = some .capture then .next (s.event (fun t => t.countNonHost.captureGrant ups)) else .next s

/-- The begin fields' program has ended (R104, R107). -/
def State.beginFieldsDone (s : State) (slot : SlotId) (f : BeginFields) (left : Option (Field BeginFields)) : State :=
  let x := programField (s.array.slot slot).begins f left
  let s := (s.setArray (s.array.putSlot slot { s.array.slot slot with begins := x.1 })).opEnded
  if s.ckpt.state = .capturing then
    if x.2 then s.failCheckpoint none .programFault else s.setCkpt { s.ckpt with begun := true, asked := false }
  else s

/-- BEGIN_FIELDS_PROGRAMMED. -/
def execBeginFieldsProgrammed (left : Option (Field BeginFields)) (s : State) : Host.Outcome State Fault Refusal :=
  match s.ctl.op with
  | some (.programBegin slot f) => .next (s.event (fun t => t.beginFieldsDone slot f left))
  | _ => .next s

/-- A page record's program has ended (R104, R107). -/
def State.pageProgramDone (s : State) (slot : SlotId) (page : Nat) (cells : List Word) (left : Option Place) : State :=
  let x := programPlace ((s.array.slot slot).place page) page cells left
  let s := (s.setArray (s.array.putSlot slot ((s.array.slot slot).putPlace page x.1))).opEnded
  if s.ckpt.state = .capturing then
    if x.2 then s.failCheckpoint (some page) .programFault
    else s.setCkpt { s.ckpt with buffer := s.ckpt.buffer.tail, asked := false }
  else s

/-- CHECKPOINT_PAGE_PROGRAMMED. -/
def execCheckpointPageProgrammed (left : Option Place) (s : State) : Host.Outcome State Fault Refusal :=
  match s.ctl.op with
  | some (.programPage slot page cells) => .next (s.event (fun t => t.pageProgramDone slot page cells left))
  | _ => .next s

/-- The completion mark's program has ended (R105, R107). -/
def State.completionDone (s : State) (slot : SlotId) (left : Option (Field Unit)) : State :=
  let x := programField (s.array.slot slot).completion () left
  let s := (s.setArray (s.array.putSlot slot { s.array.slot slot with completion := x.1 })).opEnded
  if s.ckpt.state = .finishing then
    if x.2 then s.failCheckpoint none .programFault else s.completeCheckpoint
  else s

/-- COMPLETION_MARK_PROGRAMMED. -/
def execCompletionMarkProgrammed (left : Option (Field Unit)) (s : State) : Host.Outcome State Fault Refusal :=
  match s.ctl.op with
  | some (.programCompletion slot) => .next (s.event (fun t => t.completionDone slot left))
  | _ => .next s

/-- The abandon mark's program has ended, with or without a fault, and the pre-erase goes on (R106). -/
def State.abandonDone (s : State) (slot : SlotId) (left : Option (Field Unit)) : State :=
  let x := programField (s.array.slot slot).abandon () left
  let s := (s.setArray (s.array.putSlot slot { s.array.slot slot with abandon := x.1 })).opEnded
  if s.ckpt.state = .erasing then s.ask (.eraseSector slot 0) else s

/-- ABANDON_MARK_PROGRAMMED. -/
def execAbandonMarkProgrammed (left : Option (Field Unit)) (s : State) : Host.Outcome State Fault Refusal :=
  match s.ctl.op with
  | some (.programAbandon slot) => .next (s.event (fun t => t.abandonDone slot left))
  | _ => .next s

/-- A pre-erase whose sector does not erase stops, with the hold set (R99). The frame names the slot whose erase failed, though it
be not the inactive one (log entry 67). -/
def State.eraseFails (s : State) (slot : SlotId) : State :=
  let s := s.setCkpt { (s.ckpt.putSlot slot SlotEntry.unknown) with state := .idle, erased := 0, hold := true }
  (s.raise .checkpointFailed FaultKind.checkpointFailed.weight).placeFrame
    (.transfer .checkpointFailed .checkpoint none (some slot) 0 .eraseFault)

/-- A sector erase of the pre-erase has ended (R98, R99). -/
def State.sectorDone (s : State) (slot : SlotId) (n : Nat) (left : Option SectorLeft) : State :=
  let x := eraseSlotSector (s.array.slot slot) n left
  let s := (s.setArray (s.array.putSlot slot x.1)).opEnded
  if s.ckpt.state ≠ .erasing then s
  else if x.2 then s.eraseFails slot
  else if n < 16 then (s.setCkpt { s.ckpt with erased := s.ckpt.erased + 1 }).ask (.eraseSector slot (n + 1))
  else
    s.setCkpt { (s.ckpt.putSlot slot { SlotEntry.unknown with state := .erased }) with state := .idle, erased := 0 }

/-- PRE_ERASE_SECTOR_ERASED. -/
def execPreEraseSectorErased (left : Option SectorLeft) (s : State) : Host.Outcome State Fault Refusal :=
  match s.ctl.op with
  | some (.eraseSector slot n) => .next (s.event (fun t => t.sectorDone slot n left))
  | _ => .next s

end Sys2Proof.Machine
end

