-- ==== Sys2Proof/Machine/ImageEvents.lean ====
section
/-! DEFINITION. The commands of chapters 1 and 2: reads, writes, exchanges, fills and drains. -/

namespace Sys2Proof.Machine

/-- READ (R9 to R12). -/
def execRead (r : Request) (ups : List Upset) (s : State) : Host.Outcome State Fault Refusal :=
  .next (s.event (fun t => t.takeRequest .read r ups))

/-- READ ON (R13). -/
def execReadOn (r : Request) (ups : List Upset) (s : State) : Host.Outcome State Fault Refusal :=
  .next (s.event (fun t => t.takeRequest .readOn r ups))

/-- WRITE (R17, R18). -/
def execWrite (r : Request) (s : State) : Host.Outcome State Fault Refusal :=
  .next (s.plainEvent (fun t => t.takeRequest .write r []))

/-- EXCHANGE (R19). -/
def execExchange (r : Request) (ups : List Upset) (s : State) : Host.Outcome State Fault Refusal :=
  .next (s.event (fun t => t.takeRequest .exchange r ups))

/-- The host read grant of an EXCHANGE held for a restore (R19). -/
def State.heldExchange (s : State) (ups : List Upset) : State :=
  match s.link.job with
  | some (.exchange tag page offset value cycle true _) =>
    s.serveExchange tag { page := page, offset := offset, values := [value] } cycle ups
  | _ => s

/-- An EXCHANGE waits for the restore of its page. -/
def State.exchangeHeld (s : State) : Bool :=
  match s.link.job with
  | some (.exchange _ _ _ _ _ held _) => held
  | _ => false

/-- HELD_EXCHANGE_READ (R19): when the restore has ended and the arbiter grants the host read. -/
def execHeldExchangeRead (ups : List Upset) (s : State) : Host.Outcome State Fault Refusal :=
  if s.exchangeHeld ∧ s.pick = some .hostRead then .next (s.event (fun t => t.heldExchange ups)) else .next s

/-- FILL (R14). -/
def execFill (r : Request) (s : State) : Host.Outcome State Fault Refusal :=
  .next (s.event (fun t => t.takeRequest .fill r []))

/-- The next page of the FILL in hand is written (R14). -/
def State.fillNext (s : State) : State :=
  match s.link.job with
  | some (.fill tag v pages (p :: rest)) => s.countHost.fillGrant tag v pages p rest
  | _ => s

/-- FILL_PAGE (R14): one fill grant. -/
def execFillPage (s : State) : Host.Outcome State Fault Refusal :=
  if s.pick = some .fillPage then .next (s.event State.fillNext) else .next s

/-- DRAIN (R25, R27): one drain grant. -/
def execDrain (s : State) : Host.Outcome State Fault Refusal :=
  if s.pick = some .drain then .next (s.event (fun t => t.countHost.drainHead)) else .next s

/-- The oldest entry that is not known to have reached age T reaches it (R23). -/
def ageOldest (t : Nat) : List Entry → List Entry
  | [] => []
  | e :: rest => if e.age < t then { e with age := t } :: rest else e :: ageOldest t rest

/-- DRAIN_AGE (R23). -/
def execDrainAge (s : State) : Host.Outcome State Fault Refusal :=
  .next (s.setQueue { s.queue with entries := ageOldest s.holdTime s.queue.entries })

end Sys2Proof.Machine
end

