-- ==== Sys2Proof/Machine/JoinEvents.lean ====
section
/-! DEFINITION. The commands of chapter 8 that no lane frame brings: JOIN, the transfer grants, the join check and the idle
timer. -/

namespace Sys2Proof.Machine

/-- JOIN (R125). -/
def execJoin (r : Request) (s : State) : Host.Outcome State Fault Refusal :=
  .next (s.plainEvent (fun t => t.takeRequest .join r []))

/-- TRANSFER_OUT (R128): one transfer-out grant. -/
def execTransferOut (ups : List Upset) (s : State) : Host.Outcome State Fault Refusal :=
  if s.pick = some .transferOut then .next (s.event (fun t => t.countNonHost.transferOutGrant ups)) else .next s

/-- The head of the inbound list is written (R132). -/
def State.transferInNext (s : State) : State :=
  match s.xfer.inbound with
  | [] => s
  | x :: rest => s.countNonHost.transferInGrant x rest

/-- TRANSFER_IN (R132): one transfer-in grant. -/
def execTransferIn (s : State) : Host.Outcome State Fault Refusal :=
  if s.pick = some .transferIn then .next (s.event State.transferInNext) else .next s

/-- JOIN_CHECK_GRANT (R135): one signature grant of the check of a JOIN-FINAL. -/
def execJoinCheckGrant (ups : List Upset) (s : State) : Host.Outcome State Fault Refusal :=
  if s.joinCheckWaits ∧ ¬ s.passWaits ∧ s.pick = some .signature then
    .next (s.event (fun t => t.countNonHost.joinCheckPage ups))
  else .next s

/-- JOIN_IDLE_TIMEOUT (R127, R134): the idle timer runs in ASKING and RECEIVING. -/
def execJoinIdleTimeout (s : State) : Host.Outcome State Fault Refusal :=
  if s.xfer.idle then .next (s.event (fun t => t.endReception true none .timeout)) else .next s

end Sys2Proof.Machine
end

