-- ==== Sys2Proof/Machine/LaneEvents.lean ====
section
/-! DEFINITION. The commands of chapters 4 and 5: closes and their signature pass, the cycle history, ENTER, WITHDRAW, RESTART, the
vote window and the PERMIT wave. -/

namespace Sys2Proof.Machine

/-- CLOSE (R53 to R55). -/
def execClose (r : Request) (s : State) : Host.Outcome State Fault Refusal :=
  .next (s.event (fun t => t.takeRequest .close r []))

/-- SIGNATURE (R56 to R60): one signature grant of a close's pass. -/
def execSignature (ups : List Upset) (s : State) : Host.Outcome State Fault Refusal :=
  if s.passWaits ∧ s.pick = some .signature then .next (s.event (fun t => t.countNonHost.signatureGrant ups))
  else .next s

/-- CYCLE RECORD (R62). -/
def execCycleRecord (r : Request) (s : State) : Host.Outcome State Fault Refusal :=
  .next (s.plainEvent (fun t => t.takeRequest .cycleRecord r []))

/-- ENTER (R86). -/
def execEnter (r : Request) (s : State) : Host.Outcome State Fault Refusal :=
  .next (s.event (fun t => t.takeRequest .enter r []))

/-- The end of the query window (R86): ENTER is refused PEER_ACTIVE if a frame of the window gave ACTIVE, and otherwise the lane
goes to FORMING. -/
def State.endQuery (s : State) (tag : Byte) : State :=
  let t := (s.setJob none).setLane { s.lane with query := none }
  if s.lane.query = some true then t.refuse .enter tag .peerActive else (t.moveLane .forming).refuse .enter tag .ok

/-- The tag of the ENTER whose query window runs. -/
def State.enterTag (s : State) : Option Byte :=
  match s.link.job with
  | some (.enter tag) => some tag
  | _ => none

/-- QUERY_WINDOW_END (R86). -/
def execQueryWindowEnd (s : State) : Host.Outcome State Fault Refusal :=
  match s.enterTag with
  | some tag => .next (s.event (fun t => t.endQuery tag))
  | none => .next s

/-- WITHDRAW (R87). -/
def execWithdraw (r : Request) (s : State) : Host.Outcome State Fault Refusal :=
  .next (s.event (fun t => t.takeRequest .withdraw r []))

/-- RESTART (R88). -/
def execRestart (r : Request) (s : State) : Host.Outcome State Fault Refusal :=
  .next (s.event (fun t => t.takeRequest .restart r []))

/-- The vote is decided by expiry (R78). -/
def State.expireVote (s : State) : State :=
  match s.lane.close with
  | none => s
  | some c => s.decideVote true none (s.outcomeNow c)

/-- VOTE_WINDOW_EXPIRY (R78). -/
def execVoteWindowExpiry (s : State) : Host.Outcome State Fault Refusal :=
  if s.votePending ∧ s.lane.window.isSome then .next (s.event State.expireVote) else .next s

/-- PERMIT_HALF_PERIOD (R90): the asserted square wave changes level. -/
def execPermitHalfPeriod (s : State) : Host.Outcome State Fault Refusal :=
  if s.pins.permit then .next (s.setPins { s.pins with permitHigh := !s.pins.permitHigh }) else .next s

end Sys2Proof.Machine
end

