-- ==== Sys2Proof/Machine/LaneFrames.lean ====
section
/-! DEFINITION. The lane ports' receive side (R69), the ten lane frames taken from a peer (chapters 5 and 8), and the transmit side's
end of a frame (R67). -/

namespace Sys2Proof.Machine

/-! ### Filtering (R69) -/

/-- What the filter makes of a whole frame. -/
inductive Verdict where
  | taken
  | badCheck
  | badKind
  | wrongLane
deriving DecidableEq, Repr

/-- The tests of R69 from order 2 on, at a part of lane `n`. -/
def verdict (n : Nat) (code : Byte) (f : RxFrame) : Verdict :=
  if f.check ≠ frameCheck (laneChecked f.lane code f.body) then .badCheck
  else if laneBodyLength code ≠ some f.body.length then .badKind
  else if f.lane ≠ byteOf (expectedLane n f.port) then .wrongLane
  else .taken

/-- LINK_CHECK is raised; it captures no frame (R69). -/
def State.linkCheck (s : State) : State := s.raise .linkCheck FaultKind.linkCheck.weight

/-- The page field of a damaged PAGE frame, as the port hands it on (R133). -/
def damagedPage (code : Byte) (f : RxFrame) : Option Nat :=
  if code = 7 ∧ f.body.length = 258 then f.body.head?.map (fun b => b.toNat) else none

/-- A frame comes from the partner's port (R140). -/
def State.fromPartner (s : State) (p : PortId) : Bool := s.xfer.partner.map Prod.snd == some p

/-- A damaged PAGE frame at a receiver: its page, if signed, is no longer current and is asked for again (R133). -/
def State.answerDamaged (s : State) (code : Byte) (f : RxFrame) : State :=
  match damagedPage code f with
  | none => s
  | some p =>
    if s.xfer.role = .receiver .receiving ∧ s.fromPartner f.port ∧ s.isSigned p then
      (s.setXfer { s.xfer with received := setDrop p s.xfer.received }).handPartner (.pageAgain p)
    else s

/-- A discarded frame raises LINK_CHECK or WIRING (R69, R148). -/
def State.discardFrame (s : State) (n : Nat) (code : Byte) (f : RxFrame) : State :=
  match verdict n code f with
  | .taken => s
  | .badCheck => (s.answerDamaged code f).linkCheck
  | .badKind => s.linkCheck
  | .wrongLane =>
    (s.raise .wiring FaultKind.wiring.weight).placeFrame
      (.link .wiring f.port code (some (expectedLane n f.port)) (some f.lane))

/-- The receive side of a port has ended a frame, or is inside one. -/
def State.setTaking (s : State) (p : PortId) (b : Bool) : State :=
  s.setPorts (s.ports.put p { s.ports.at p with taking := b })

/-- A whole frame of kind `code` has been received: it is taken by `f`, or discarded (R68, R69). -/
def State.receive (s : State) (code : Byte) (f : RxFrame) (take : State → State) : State :=
  let s := s.setTaking f.port false
  match s.laneNumber with
  | none => s
  | some n => if verdict n code f = .taken then take s else s.discardFrame n code f

/-- A frame row has its effect while the part serves its ports (R69, R166). -/
def State.frameEvent (s : State) (code : Byte) (f : RxFrame) (take : State → State) : State :=
  if s.phase = .running then s.event (fun t => t.receive code f take) else s

/-! ### ANNOUNCE, QUERY, STATE -/

/-- A frame of ENTER's query window that gives ACTIVE is noted (R86). -/
def State.watchQuery (s : State) (st : Option LaneState) : State :=
  if s.lane.query.isSome ∧ st = some .active then s.setLane { s.lane with query := some true } else s

/-- A vote has been decided when its record's outcome is neither PENDING nor NOT_VOTED (R75). -/
def VoteOutcome.decided (o : VoteOutcome) : Bool := o != .pending && o != .notVoted

def CycleRecord.note (r : CycleRecord) : PortId → PeerNote
  | .one => r.peer1
  | .two => r.peer2

def CycleRecord.putNote (r : CycleRecord) (p : PortId) (n : PeerNote) : CycleRecord :=
  match p with
  | .one => { r with peer1 := n }
  | .two => { r with peer2 := n }

/-- A late announcement written into the newest decided record of its cycle, where that record awaits it as MISSING or
NOT_EXPECTED (R75); the history is given newest first. -/
def noteLate (p : PortId) (a : Announcement) : List CycleRecord → Option (List CycleRecord)
  | [] => none
  | r :: rest =>
    if r.cycle = a.cycle ∧ r.outcome.decided then
      if (r.note p).arrival = .missing ∨ (r.note p).arrival = .notExpected then
        some (r.putNote p { r.note p with arrival := .late, state := a.state, signature := a.signature } :: rest)
      else none
    else
      match noteLate p a rest with
      | none => none
      | some l => some (r :: l)

/-- An announcement is sorted by its cycle (R75). -/
def State.sortAnnouncement (s : State) (p : PortId) (a : Announcement) : State :=
  if !voting s.lane.state then s
  else if a.cycle = s.cycleVoted then s.mapPeer p (fun x => { x with pending := some a })
  else if a.cycle = s.cycleVoted + 1 then s.mapPeer p (fun x => { x with early := some a })
  else
    match noteLate p a s.lane.history.reverse with
    | some h => (s.setLane { s.lane with history := h.reverse }).raise .lateAnnounce FaultKind.lateAnnounce.weight
    | none =>
      (s.raise .outOfStep FaultKind.outOfStep.weight).placeFrame (.link .outOfStep p 1 (s.laneOn p) none)

/-- What a frame that gives a peer's state sets off once the entry is updated and an announcement sorted: R82 in FORMING, the
test of completeness (R77), and at a receiver the end of the join when its donor is not ACTIVE (R134). `byState` says that the
frame is a STATE. -/
def State.peerGave (s : State) (p : PortId) (byState : Bool) (st : Option LaneState) : State :=
  let s := if s.lane.state = .forming ∧ st = some .active then s.activePeerSeen (if byState then some p else none)
    else s.testVote
  if s.xfer.role = .receiver .receiving ∧ s.fromPartner p ∧ st ≠ some .active then
    s.endReception true none .donorLeft
  else s

/-- An ANNOUNCE taken from a peer (R73, R75, R77, R82, R86, R134). Its pressure is stored as given (log entry 47), and it is
sorted before R82 moves the lane (log entry 58). -/
def State.takeAnnounce (s : State) (f : RxFrame) : State :=
  match announceArgs f.body with
  | none => s
  | some a =>
    let s := s.mapPeer f.port (fun x => { x with
      known := a.note.state, heard := some a.note.cycle, pressure := a.p, donating := a.donating, silent := 0,
      lost := false })
    ((s.watchQuery a.note.state).sortAnnouncement f.port a.note).peerGave f.port false a.note.state

/-- ANNOUNCE. -/
def execAnnounce (f : RxFrame) (s : State) : Host.Outcome State Fault Refusal :=
  .next (s.frameEvent 1 f (fun t => t.takeAnnounce f))

/-- QUERY (R71). -/
def execQuery (f : RxFrame) (s : State) : Host.Outcome State Fault Refusal :=
  .next (s.frameEvent 2 f (fun t => t.hand f.port (.state t.lane.state t.lane.lastClosed)))

/-- A STATE at a donor from its partner (R138): JOINING confirms the receiver; another state then ends the donation. -/
def State.receiverGave (s : State) (p : PortId) (st : Option LaneState) : State :=
  if s.xfer.role = .donor ∧ s.fromPartner p then
    if st = some .joining then s.setXfer { s.xfer with confirmed := true }
    else if s.xfer.confirmed then s.endDonation none none 0 .receiverLeft
    else s
  else s

/-- A STATE taken from a peer (R73, R77, R82, R86, R134, R138). A vote it completes is decided before the donation's test (log
entry 51). -/
def State.takeState (s : State) (f : RxFrame) : State :=
  match stateArgs f.body with
  | none => s
  | some (st, c) =>
    let s := s.mapPeer f.port (fun x => { x with known := st, heard := some c, silent := 0, lost := false })
    ((s.watchQuery st).peerGave f.port true st).receiverGave f.port st

/-- STATE. -/
def execState (f : RxFrame) (s : State) : Host.Outcome State Fault Refusal :=
  .next (s.frameEvent 3 f (fun t => t.takeState f))

/-! ### Join frames -/

/-- A JOIN-ASK is answered on its port (R126). -/
def State.takeJoinAsk (s : State) (f : RxFrame) : State :=
  if s.lane.state ≠ .active then s.hand f.port (.joinRefuse .notActive)
  else if s.xfer.role ≠ .none then s.hand f.port (.joinRefuse .donorBusy)
  else if Config.pressureHigh ≤ s.pressure.p then s.hand f.port (.joinRefuse .donorUnhealthy)
  else
    let s := s.setXfer { Transfer.fresh with
      role := .donor, partner := (s.laneOn f.port).map (fun l => (l, f.port)), plan := s.signedPages }
    (s.mapPeer f.port (fun x => { x with relation := .receiver })).hand f.port (.joinGrant s.signedPages.length)

/-- JOIN_ASK. -/
def execJoinAsk (f : RxFrame) (s : State) : Host.Outcome State Fault Refusal :=
  .next (s.frameEvent 4 f (fun t => t.takeJoinAsk f))

/-- A JOIN-GRANT at an asking receiver (R127). A page count that differs is tested first (log entry 50). -/
def State.takeJoinGrant (s : State) (f : RxFrame) : State :=
  if s.xfer.role = .receiver .asking ∧ s.fromPartner f.port then
    if grantArgs f.body ≠ some s.signedPages.length then s.endReception true none .planMismatch
    else if s.lane.close.isSome ∨ s.inFlight then s.endReception true none .receiverBusy
    else (s.setXfer { s.xfer with role := .receiver .receiving, idle := true }).moveLane .joining
  else s

/-- JOIN_GRANT. -/
def execJoinGrant (f : RxFrame) (s : State) : Host.Outcome State Fault Refusal :=
  .next (s.frameEvent 5 f (fun t => t.takeJoinGrant f))

/-- The reason byte of a JOIN-REFUSE or JOIN-ABORT, as given (R167). -/
def reasonOf (f : RxFrame) : Reason := Reason.ofCode (f.body.headD 0)

/-- A JOIN-REFUSE at an asking receiver (R127). -/
def State.takeJoinRefuse (s : State) (f : RxFrame) : State :=
  if s.xfer.role = .receiver .asking ∧ s.fromPartner f.port then s.endReception false none (reasonOf f) else s

/-- JOIN_REFUSE. -/
def execJoinRefuse (f : RxFrame) (s : State) : Host.Outcome State Fault Refusal :=
  .next (s.frameEvent 6 f (fun t => t.takeJoinRefuse f))

/-- A PAGE at a receiver in RECEIVING (R132). -/
def State.takePage (s : State) (f : RxFrame) : State :=
  match pageArgs f.body with
  | none => s
  | some (p, cells) =>
    if s.xfer.role = .receiver .receiving ∧ s.fromPartner f.port then
      if !s.isSigned p then s.endReception true (some p) .planMismatch
      else if Config.inboundFrames ≤ s.xfer.inbound.length then s.handPartner (.pageAgain p)
      else s.setXfer { s.xfer with inbound := s.xfer.inbound ++ [{ page := p, cells := cells }] }
    else s

/-- PAGE. -/
def execPage (f : RxFrame) (s : State) : Host.Outcome State Fault Refusal :=
  .next (s.frameEvent 7 f (fun t => t.takePage f))

/-- A page's retry count. -/
def Transfer.retryOf (x : Transfer) (p : Nat) : Nat := tabGet 0 x.retry p

/-- A PAGE-AGAIN at a donor (R129). -/
def State.takePageAgain (s : State) (f : RxFrame) : State :=
  let p := (f.body.headD 0).toNat
  if s.xfer.role = .donor ∧ s.fromPartner f.port ∧ s.isSigned p then
    let n := s.xfer.retryOf p + 1
    let s := s.setXfer { s.xfer with retry := tabPut 0 s.xfer.retry p n }
    if s.retryLimit < n then s.endDonation (some .linkFault) (some p) n .linkFault
    else if s.closingPassRuns then s.setXfer { s.xfer with closing := setAdd p s.xfer.closing }
    else s.setXfer { s.xfer with resend := setAdd p s.xfer.resend }
  else s

/-- PAGE_AGAIN. -/
def execPageAgain (f : RxFrame) (s : State) : Host.Outcome State Fault Refusal :=
  .next (s.frameEvent 8 f (fun t => t.takePageAgain f))

/-- A JOIN-FINAL at a receiver in RECEIVING (R135). -/
def State.takeJoinFinal (s : State) (f : RxFrame) : State :=
  if s.xfer.role = .receiver .receiving ∧ s.fromPartner f.port then
    s.setXfer { s.xfer with role := .receiver .checking, final := finalArgs f.body, idle := false, checkBegun := false }
  else s

/-- JOIN_FINAL. -/
def execJoinFinal (f : RxFrame) (s : State) : Host.Outcome State Fault Refusal :=
  .next (s.frameEvent 9 f (fun t => t.takeJoinFinal f))

/-- A JOIN-ABORT from the partner (R134, R138). -/
def State.takeJoinAbort (s : State) (f : RxFrame) : State :=
  if s.fromPartner f.port then
    match s.xfer.role with
    | .receiver .receiving => s.endReception false none (reasonOf f)
    | .donor => s.endDonation none none 0 .receiverAbort
    | _ => s
  else s

/-- JOIN_ABORT. -/
def execJoinAbort (f : RxFrame) (s : State) : Host.Outcome State Fault Refusal :=
  .next (s.frameEvent 10 f (fun t => t.takeJoinAbort f))

/-! ### Faulty frames and the transmit side -/

/-- LANE_FRAME_FAULTY (R69, R133): a frame that passes every test is another command, and has no effect as this one. -/
def execLaneFrameFaulty (kind : Byte) (f : RxFrame) (s : State) : Host.Outcome State Fault Refusal :=
  .next (s.frameEvent kind f (fun t => t))

/-- A frame ends unfinished at a port of a part that has a lane number (R68, R69). -/
def State.brokenFrame (s : State) (p : PortId) (taking : Bool) : State :=
  let s := s.setTaking p taking
  match s.laneNumber with
  | none => s
  | some _ => s.linkCheck

/-- LANE_CHAR_TIMEOUT (R69): the characters of a frame have stopped. -/
def execLaneCharTimeout (port : PortId) (s : State) : Host.Outcome State Fault Refusal :=
  if s.phase = .running then .next (s.event (fun t => t.brokenFrame port false)) else .next s

/-- MARKER_INSIDE_FRAME (R69, R168): the frame in progress is discarded and the next one is being taken. -/
def execMarkerInsideFrame (port : PortId) (s : State) : Host.Outcome State Fault Refusal :=
  if s.phase = .running then .next (s.event (fun t => t.brokenFrame port true)) else .next s

/-- PORT_FRAME_SENT (R67): the port begins its oldest waiting frame, of the first group if there is one. -/
def execPortFrameSent (port : PortId) (s : State) : Host.Outcome State Fault Refusal :=
  match (s.ports.at port).sending with
  | none => .next s
  | some _ => .next (s.setPorts (s.ports.put port (s.ports.at port).next))

end Sys2Proof.Machine
end

