-- ==== Sys2Proof/Machine/LinkEvents.lean ====
section
/-! DEFINITION. The events of the host link itself: chip select, a request of no known kind, and the end of a reply (R154 to
R156, R160). -/

namespace Sys2Proof.Machine

/-- HCS_FALLING (R154, R160): in IDLE it opens an interval; while the part is off or in reset only the line changes, and that
interval is not taken. -/
def execHcsFalling (s : State) : Host.Outcome State Fault Refusal :=
  if s.link.hcsLow then .next s
  else if s.link.phase = .idle ∧ (s.phase = .startUp ∨ s.phase = .running) then
    .next (s.setLink { s.link with hcsLow := true, phase := .receiving })
  else .next (s.setLink { s.link with hcsLow := true })

/-- HCS_RISING (R154): the assembler returns to IDLE; a partial request, an unsent reply or the rest of one is lost, and a
request that waits goes on. -/
def execHcsRising (s : State) : Host.Outcome State Fault Refusal :=
  if s.link.hcsLow then
    .next (s.setLink { s.link with hcsLow := false, phase := .idle, reply := none, live := false, secondLive := false })
  else .next s

/-- UNKNOWN_KIND (R155): a complete request answered FRAME_CHECK, STARTING or UNKNOWN_KIND. A request that reaches the handling
of its kind is another command, and has no effect as this one. -/
def execUnknownKind (kind : Byte) (r : Request) (s : State) : Host.Outcome State Fault Refusal :=
  if (ReqKind.ofCode kind).isSome ∧ requestSound kind r ∧ s.phase = .running then .next s
  else .next (s.plainEvent (fun t => t.takeByte kind r []))

/-- REPLY_SENT_WHOLE (R154): REPLYING becomes DONE. -/
def execReplySentWhole (s : State) : Host.Outcome State Fault Refusal :=
  if s.link.phase = .replying then .next (s.setLink { s.link with phase := .done, reply := none }) else .next s

end Sys2Proof.Machine
end

