-- ==== Sys2Proof/Machine/PatrolEvents.lean ====
section
/-! DEFINITION. The commands of chapter 3: the visit timer, a patrol visit, and the decay of fault pressure. -/

namespace Sys2Proof.Machine

/-- The visit timer starts with the interval of the pace level in force (R38). -/
def State.startVisitTimer (s : State) : State :=
  s.setPatrol { s.patrol with timer := some (visitInterval s.patrolBase s.patrol.pace), request := false }

/-- PATROL_TIMER_EXPIRY (R38): the timer stops and the patrol's request waits. -/
def execPatrolTimerExpiry (s : State) : Host.Outcome State Fault Refusal :=
  match s.patrol.timer with
  | none => .next s
  | some _ => .next (s.setPatrol { s.patrol with timer := none, request := true })

/-- A page the patrol may visit (R39). -/
def State.visitable (s : State) (p : Nat) : Bool :=
  (s.page p).state = .sound || (s.page p).state = .suspect || (s.page p).state = .stale

/-- The page a visit takes, with whether the search passed from the highest mapped page back to the lowest (R39). -/
def State.visitChoice (s : State) (cursor : Nat) : Option (Nat × Bool) :=
  match (s.mappedPages.filter (fun p => decide (cursor ≤ p))).find? s.visitable with
  | some p => some (p, false)
  | none => ((s.mappedPages.filter (fun p => decide (p < cursor))).find? s.visitable).map (fun p => (p, true))

/-- The cursor passes from the highest mapped page back to the lowest, or not (R39). -/
def State.countRound (s : State) (passed : Bool) : State :=
  if passed then s.setPatrol { s.patrol with round := s.patrol.round + 1 } else s

/-- The cursor moves to the mapped page after `p`, or back to the lowest (R39). -/
def State.advanceCursor (s : State) (p : Nat) : State :=
  match s.mappedPages.find? (fun q => decide (p < q)) with
  | some q => s.setPatrol { s.patrol with cursor := some q }
  | none => (s.setPatrol { s.patrol with cursor := s.mappedPages.head? }).countRound true

/-- What a visit finds (R41): listed cells are not checked, and an uncorrectable cell of a suspect-all page is nothing new. -/
def State.visitScan (s : State) (p : Nat) : State × Scan :=
  let x := scanPage s.listed p s
  (x.1, if (s.page p).suspectAll then { x.2 with bad := [] } else x.2)

/-- One patrol grant (R39, R41, R42). The visit's faults are handed on before its timer starts (log entry 45). -/
def State.visitGrant (s : State) (ups : List Upset) : State :=
  match s.patrol.cursor with
  | none => s.startVisitTimer
  | some c =>
    match s.visitChoice c with
    | none => s.startVisitTimer
    | some (p, passed) =>
      let x := ((s.countRound passed).strike ups).visitScan p
      ((x.1.handOn p x.2).advanceCursor p).startVisitTimer

/-- PATROL_VISIT (R41). -/
def execPatrolVisit (ups : List Upset) (s : State) : Host.Outcome State Fault Refusal :=
  if s.pick = some .patrol then .next (s.event (fun t => t.countNonHost.visitGrant ups)) else .next s

/-- P after a decay, with the pace level re-evaluated (R47, R48) and the timer running its period again. -/
def State.decay (s : State) : State :=
  let q := pressureDecayed s.pressure.p
  let t := s.setPressure { p := q, timer := some s.decayPeriod }
  if q = s.pressure.p then t else t.setPatrol { t.patrol with pace := paceAfter q t.patrol.pace }

/-- DECAY_TIMER_EXPIRY (R47). -/
def execDecayTimerExpiry (s : State) : Host.Outcome State Fault Refusal :=
  match s.pressure.timer with
  | none => .next s
  | some _ => .next (s.plainEvent State.decay)

end Sys2Proof.Machine
end

