-- ==== Sys2Proof/Machine/PowerReset.lean ====
section
/-! DEFINITION. Power, LANE RESET and start-up (R160, R166, and each chapter's values after each reset). -/

namespace Sys2Proof.Machine

/-- What is left when every volatile block takes its power-on values: the array, the waiting commands, the two input lines and
the model's counters stay. -/
def State.unpowered (s : State) : State :=
  { State.cold with
    array := s.array
    pending := s.pending
    lrst := s.lrst
    powerOns := s.powerOns
    free := s.free
    link := { State.cold.link with hcsLow := s.link.hcsLow } }

/-- The reset ends: start-up begins with the four reads of the start-up scan (R166). -/
def State.beginStartUp (s : State) : State := (s.setPhase .startUp).setCtl Controller.scanning

/-- POWER_ON: every block takes its power-on values; start-up begins unless LANE RESET is held. It has no effect on a part that
has power. -/
def execPowerOn (s : State) : Host.Outcome State Fault Refusal :=
  if s.phase ≠ .off then .next s
  else
    let t := s.unpowered.setPowerOns (s.powerOns + 1)
    .next (if s.lrst then t.setPhase .held else t.beginStartUp)

/-- POWER_LOSS (R93, R108): the array keeps what the operation cut short left; everything else is lost. -/
def execPowerLoss (cut : Cut) (s : State) : Host.Outcome State Fault Refusal :=
  if s.phase = .off then .next s else .next (s.unpowered.setArray (cutArray s.ctl cut s.array))

/-- The cell writes of a run, in ascending order. -/
def runWrites (addr : Nat) : List Word → List (Nat × Word)
  | [] => []
  | v :: vs => (addr, v) :: runWrites (addr + 1) vs

/-- The cell writes of a page record and the journal records replayed over it. -/
def replayWrites (page : Nat) (cells : List Word) (records : List JournalRecord) : List (Nat × Word) :=
  runWrites (cellAddr page 0) cells ++
    (records.filter (fun r => r.page == page)).flatMap (fun r => runWrites (cellAddr page r.offset) r.values)

/-- The cell writes of the restore-write grant in progress. -/
def State.restoreWrites (s : State) : List (Nat × Word) :=
  match s.rest.op with
  | .page p slot g (some cells) =>
    if s.ckpt.active = some slot ∧ (s.ckpt.slot slot).generation = g ∧ s.isCheckpointed p then
      match restoreAction (s.isJournalled p) (s.journal.covers slot g) (s.page p).dirty with
      | .replay => replayWrites p cells s.journal.records
      | .plain => replayWrites p cells []
      | .stale => replayWrites p cells []
      | .fails => []
    else []
  | .image i =>
    match i.todo, i.cells with
    | p :: _, some cells =>
      if (s.page p).state ≠ .restoring then []
      else replayWrites p cells (if s.isJournalled p && s.journal.covers i.slot i.generation then s.journal.records else [])
    | _, _ => []
  | _ => []

/-- The rewrites of corrected cells by a grant that takes the store from `s` to `t`, among the cells it reads, in the order
read (R1). -/
def State.rewrites (s t : State) (cells : List Nat) : List (Nat × Word) :=
  (cells.filter (fun a => decide ((s.cell a).damage = .oneBit) && decide ((t.cell a).damage = .intact))).map
    (fun a => (a, (t.cell a).value))

/-- The rewrites of a grant that checks all cells of a page. -/
def State.pageRewrites (s : State) (page : Nat) : List (Nat × Word) :=
  s.rewrites (scanPage (fun _ => false) page s).1 ((List.range 64).map (cellAddr page))

/-- The page a grant of a signature pass or join check reads (R57, R135). -/
def State.signPage (s : State) : Option Nat :=
  match s.sign.todo with
  | [] => none
  | st :: _ => if s.readable st.page then some st.page else none

/-- The page a transfer-out grant reads (R128). -/
def State.sendPage (s : State) : Option Nat :=
  match s.transferPage with
  | none => none
  | some p => if s.readable p then some p else none

/-- The rewrites of a grant that reads a page, where it reads one. -/
def State.readPageRewrites (s : State) : Option Nat → List (Nat × Word)
  | none => []
  | some p => s.pageRewrites p

/-- The rewrites of the patrol grant (R37, R41). -/
def State.visitRewrites (s : State) : List (Nat × Word) :=
  match s.patrol.cursor with
  | none => []
  | some c =>
    match s.visitChoice c with
    | none => []
    | some (p, _) => s.rewrites (s.visitScan p).1 ((List.range 64).map (cellAddr p))

/-- The rewrites of the host read grant (R11, R19). -/
def State.readRewrites (s : State) : List (Nat × Word) :=
  let cells := match s.link.job with
    | some (.read _ _ start count wrap _ _) => s.readCells start count wrap
    | some (.exchange _ page offset ..) => [cellAddr page offset]
    | _ => []
  s.rewrites (serveCells cells (s, ReadRun.empty)).1 cells

/-- The cell writes, in order, of the grant in progress: the grant the arbiter gives (R16). A grant that reads the store rewrites
the cells it corrects (R1). -/
def State.grantWrites (s : State) : List (Nat × Word) :=
  match s.pick with
  | none => []
  | some .hostRead => s.readRewrites
  | some .drain =>
    match s.queue.entries with
    | [] => []
    | e :: _ => if s.discards e then [] else runWrites (cellAddr e.page e.offset) e.values
  | some .fillPage =>
    match s.link.job with
    | some (.fill _ v _ (p :: _)) => runWrites (cellAddr p 0) (List.replicate 64 v)
    | _ => []
  | some .restoreWrite => s.restoreWrites
  | some .transferIn =>
    match s.xfer.inbound with
    | x :: _ => runWrites (cellAddr x.page 0) x.cells
    | [] => []
  | some .signature => s.readPageRewrites s.signPage
  | some .capture => s.readPageRewrites (s.captureChoice.map Prod.fst)
  | some .transferOut => s.readPageRewrites s.sendPage
  | some .patrol => s.visitRewrites

/-- What a complete request that asks for a host read grant waits with: the admitted read, or the exchange whose old value must
come from the store (R9, R13, R19). -/
def State.readJob (s : State) (k : ReqKind) (r : Request) : Option Job :=
  match k with
  | .read =>
    match s.admitRead r with
    | .ok a => some (.read r.tag k a.start a.count a.wrap s.openCycle [])
    | .error _ => none
  | .readOn =>
    match s.admitReadOn r with
    | .ok a => some (.read r.tag k a.start a.count a.wrap s.openCycle [])
    | .error _ => none
  | .exchange =>
    match s.admitExchange r with
    | .ok a =>
      if (s.forwarded (cellAddr a.page a.offset)).isNone ∧ (s.page a.page).state ≠ .restoring then
        some (s.exchangeJob r.tag a false [])
      else none
    | .error _ => none
  | _ => none

/-- The part as a reset finds it whose host read grant it cuts: the request, taken in RECEIVING, asks for its grant (R15, R16,
R155). -/
def State.readBegun (s : State) : Option (Byte × Request) → State
  | none => s
  | some (kind, r) =>
    match ReqKind.ofCode kind with
    | none => s
    | some k =>
      if s.link.phase = .receiving ∧ s.link.job = none ∧ s.linkRefusal k r = none then
        match s.readJob k r with
        | some j => s.setJob (some j)
        | none => s
      else s

/-- A reset leaves each cell of a grant in progress with its old value or its new one, with a matching code (R1, R20): the
writes that had been made are made. -/
def tornWrites : List Bool → List (Nat × Word) → State → State
  | b :: bs, (a, v) :: ws, s => tornWrites bs ws (if b then s.writeCell a v else s)
  | _, _, s => s

/-- LANE_RESET_ASSERT (R160 and the lane reset columns): a powered part enters reset; the image, the journal by R36 and the
array are kept. The writes of the grant in progress, and the rewrites of cells it had corrected, stand where they had been made
(R1, R37; log entries 12 and 31). A first fill page grant that is cut has broken no journal (log entry 62). -/
def execLaneResetAssert (cut : Cut) (s : State) : Host.Outcome State Fault Refusal :=
  if s.phase = .off ∨ s.phase = .held then .next (s.setLrst true)
  else
    let u := (s.strike cut.ups).readBegun cut.read
    let torn := if s.phase = .running then tornWrites cut.torn u.grantWrites u else s
    let t := (s.unpowered.setLrst true).setPhase .held
    .next (((t.setImage torn.image).setJournal s.journal.ended).setArray (cutArray s.ctl cut s.array))

/-- LANE_RESET_RELEASE: the reset of a powered part ends and start-up begins (R166). -/
def execLaneResetRelease (s : State) : Host.Outcome State Fault Refusal :=
  if s.phase = .held then .next ((s.setLrst false).beginStartUp) else .next (s.setLrst false)

/-! ### Start-up -/

/-- A field whose read does not hold reads as damaged from then on; an erased one still reads erased (R92; log entry 13). -/
def loseField {α : Type} : Field α → Field α
  | .erased => .erased
  | _ => .damaged

/-- The record's place likewise. -/
def loseRecord : RecordPlace → RecordPlace
  | .erased => .erased
  | _ => .checkFailure

/-- An area whose read does not hold. -/
def loseArea (x : RetArray) : ArrayArea → RetArray
  | .record => { x with record := loseRecord x.record }
  | .lock => { x with lock := loseField x.lock }
  | .begins i => x.putSlot i { x.slot i with begins := loseField (x.slot i).begins }
  | .completion i => x.putSlot i { x.slot i with completion := loseField (x.slot i).completion }
  | .abandon i => x.putSlot i { x.slot i with abandon := loseField (x.slot i).abandon }

/-- The stored record as the commissioning read finds it (R166 step 1): a record whose check does not hold is DAMAGED. -/
def readRecord : RecordPlace → RecordPlace
  | .record r c => if c = Config.recordCheck r then .record r c else .checkFailure
  | x => x

/-- A slot as its header classifies it (R96). -/
def headerEntry (x : SlotStore) : SlotEntry :=
  match x.begins with
  | .whole f =>
    { state := if x.completion = .whole () ∧ x.abandon ≠ .whole () then .complete else .invalid,
      generation := some f.generation, cycle := some f.cycle, start := some f.start }
  | .erased =>
    if x.completion = .erased ∧ x.abandon = .erased then { SlotEntry.unknown with state := .erased } else SlotEntry.unknown
  | .damaged => SlotEntry.unknown

/-- The highest generation seen by the scan (R96). -/
def highestSeen (a b : SlotEntry) : Word :=
  if generationNat a.generation < generationNat b.generation then b.generation.getD 0 else a.generation.getD 0

/-- The record in use and the lock state after the commissioning read (R166 step 1). -/
def commissioningRead (x : RetArray) : Commissioning :=
  { stored := readRecord x.record, locked := decide (x.lock = .whole ()),
    inUse := match testStored (readRecord x.record) with
      | .ok r => some (clampRecord r)
      | .error _ => none }

/-- Start-up completes in one event (R166 steps 1 to 3, R37, R45, R96, R141). -/
def State.completeStartUp (s : State) (lost : List ArrayArea) : State :=
  let s := s.setArray (lost.foldl loseArea s.array)
  let s := s.setComm (commissioningRead s.array)
  let s := s.setCkpt { s.ckpt with
    slot0 := headerEntry s.array.slot0, slot1 := headerEntry s.array.slot1,
    highest := highestSeen (headerEntry s.array.slot0) (headerEntry s.array.slot1) }
  let s := s.setCtl { op := none, suspended := none, waiting := [] }
  let s := s.setFaults { s.faults with mask := match s.comm.inUse with
    | none => BitVec.allOnes 21
    | some r => r.alertMask }
  let s := (s.setLane { s.lane with state := if s.comm.inUse.isSome then .standby else .config }).freshPeers
  let s := s.setPatrol { s.patrol with
    cursor := s.mappedPages.head?, timer := some (visitInterval s.patrolBase s.patrol.pace) }
  let s := s.setPressure { s.pressure with timer := some s.decayPeriod }
  (s.setPhase .running).handBoth (.state s.lane.state s.lane.lastClosed)

/-- START_UP_COMPLETE (R166): it has its effect while start-up runs. -/
def execStartUpComplete (lost : List ArrayArea) (s : State) : Host.Outcome State Fault Refusal :=
  if s.phase = .startUp then .next (s.event (fun t => t.completeStartUp lost)) else .next s

end Sys2Proof.Machine
end

