-- ==== Sys2Proof/Machine/RestoreEvents.lean ====
section
/-! DEFINITION. The commands of chapter 7: RESTORE PAGE, RESTORE IMAGE, and the reads and restore-write grants of both. -/

namespace Sys2Proof.Machine

/-- RESTORE PAGE (R113). -/
def execRestorePage (r : Request) (s : State) : Host.Outcome State Fault Refusal :=
  .next (s.event (fun t => t.takeRequest .restorePage r []))

/-- A page read of the array: with `lost` the page check of the record there does not hold (R92), now or later. -/
def State.losePlace (s : State) (slot : SlotId) (page : Nat) (lost : Bool) : State :=
  match lost, s.readPlace slot page with
  | true, .record _ _ => s.setArray (s.array.putSlot slot ((s.array.slot slot).putPlace page .checkFailure))
  | _, _ => s

/-- The page restore's read has ended (R114); a read whose restore has ended meanwhile is discarded (R118). The freed controller
starts a waiting operation before the engine asks for its next read (log entry 63), and a read that gives no values fails the
restore though the slot is active no more (log entry 64). -/
def State.pageReadDone (s : State) (slot : SlotId) (page : Nat) (lost : Bool) : State :=
  let s := (s.losePlace slot page lost).opEnded
  match s.rest.op with
  | .page p sl g none =>
    if p = page ∧ sl = slot then
      match placeResult page (s.readPlace slot page) with
      | .ok cells => s.setRest { s.rest with op := .page p sl g (some cells) }
      | .error why => s.failPageRestore page (some slot) why
    else s
  | _ => s

/-- PAGE_RESTORE_READ_DONE (R114). -/
def execPageRestoreReadDone (lost : Bool) (s : State) : Host.Outcome State Fault Refusal :=
  match s.ctl.op with
  | some (.readPage false slot page) => .next (s.event (fun t => t.pageReadDone slot page lost))
  | _ => .next s

/-- The restore-write grant of the page restore in hand (R115, R116). -/
def State.pageWriteNext (s : State) : State :=
  match s.rest.op with
  | .page p slot g (some cells) => s.countNonHost.pageRestoreGrant p slot g cells
  | _ => s

/-- A page restore, and not an image restore, is in hand. -/
def State.pageRestores (s : State) : Bool :=
  match s.rest.op with
  | .page .. => true
  | _ => false

/-- PAGE_RESTORE_WRITE (R116). -/
def execPageRestoreWrite (s : State) : Host.Outcome State Fault Refusal :=
  if s.pageRestores ∧ s.pick = some .restoreWrite then .next (s.event State.pageWriteNext) else .next s

/-- RESTORE IMAGE (R119, R120). -/
def execRestoreImage (r : Request) (s : State) : Host.Outcome State Fault Refusal :=
  .next (s.event (fun t => t.takeRequest .restoreImage r []))

/-- The read of an image restore's page has ended (R121); a page an APPLY has unmapped is passed over (R123). The freed
controller starts a waiting operation before the engine asks for its next read (log entry 63). -/
def State.imageReadDone (s : State) (slot : SlotId) (page : Nat) (lost : Bool) : State :=
  let s := (s.losePlace slot page lost).opEnded
  match s.rest.op with
  | .image i =>
    match i.todo, i.cells with
    | p :: _, none =>
      if p = page ∧ i.slot = slot then
        if (s.page p).state ≠ .restoring then s.imageGoesOn i
        else
          match placeResult page (s.readPlace slot page) with
          | .ok cells => s.setRest { s.rest with op := .image { i with cells := some cells } }
          | .error why => s.imageFails i p why
      else s
    | _, _ => s
  | _ => s

/-- IMAGE_RESTORE_READ_DONE (R121). -/
def execImageRestoreReadDone (lost : Bool) (s : State) : Host.Outcome State Fault Refusal :=
  match s.ctl.op with
  | some (.readPage true slot page) => .next (s.event (fun t => t.imageReadDone slot page lost))
  | _ => .next s

/-- The restore-write grant of the image restore in hand (R121). -/
def State.imageWriteNext (s : State) : State :=
  match s.rest.op with
  | .image i =>
    match i.cells with
    | some cells => s.countNonHost.imageRestoreGrant i cells
    | none => s
  | _ => s

/-- IMAGE_RESTORE_WRITE (R121). -/
def execImageRestoreWrite (s : State) : Host.Outcome State Fault Refusal :=
  if s.imageRuns ∧ s.pick = some .restoreWrite then .next (s.event State.imageWriteNext) else .next s

end Sys2Proof.Machine
end

