-- ==== Sys2Proof/Machine/ServiceEvents.lean ====
section
/-! DEFINITION. The commands of chapters 9, 10 and 11: the fault requests, STATUS, and the commissioning requests with the ends of
the commissioning unit's array operations. -/

namespace Sys2Proof.Machine

/-- FAULT FRAME (R150). -/
def execFaultFrame (r : Request) (s : State) : Host.Outcome State Fault Refusal :=
  .next (s.plainEvent (fun t => t.takeRequest .faultFrame r []))

/-- RELEASE FAULT (R151). -/
def execReleaseFault (r : Request) (s : State) : Host.Outcome State Fault Refusal :=
  .next (s.plainEvent (fun t => t.takeRequest .releaseFault r []))

/-- FAULT SETS (R152). -/
def execFaultSets (r : Request) (s : State) : Host.Outcome State Fault Refusal :=
  .next (s.plainEvent (fun t => t.takeRequest .faultSets r []))

/-- CLEAR ACCRUED (R143). -/
def execClearAccrued (r : Request) (s : State) : Host.Outcome State Fault Refusal :=
  .next (s.plainEvent (fun t => t.takeRequest .clearAccrued r []))

/-- SET ALERT MASK (R144). -/
def execSetAlertMask (r : Request) (s : State) : Host.Outcome State Fault Refusal :=
  .next (s.plainEvent (fun t => t.takeRequest .setAlertMask r []))

/-- STATUS (R159). -/
def execStatus (r : Request) (s : State) : Host.Outcome State Fault Refusal :=
  .next (s.plainEvent (fun t => t.takeRequest .status r []))

/-- READ COMMISSIONING (R163). -/
def execReadCommissioning (r : Request) (s : State) : Host.Outcome State Fault Refusal :=
  .next (s.plainEvent (fun t => t.takeRequest .readCommissioning r []))

/-- WRITE COMMISSIONING (R163). -/
def execWriteCommissioning (r : Request) (s : State) : Host.Outcome State Fault Refusal :=
  .next (s.event (fun t => t.takeRequest .writeCommissioning r []))

/-- COMMISSIONING_ERASE_DONE (R163). -/
def execCommissioningEraseDone (left : Option CommLeft) (s : State) : Host.Outcome State Fault Refusal :=
  match s.ctl.op with
  | some .eraseCommissioning => .next (s.event (fun t => t.eraseDone left))
  | _ => .next s

/-- COMMISSIONING_PROGRAM_DONE (R163). -/
def execCommissioningProgramDone (left : Option RecordPlace) (s : State) : Host.Outcome State Fault Refusal :=
  match s.ctl.op with
  | some (.programRecord r) => .next (s.event (fun t => t.programDone r left))
  | _ => .next s

/-- LOCK COMMISSIONING (R165). -/
def execLockCommissioning (r : Request) (s : State) : Host.Outcome State Fault Refusal :=
  .next (s.event (fun t => t.takeRequest .lockCommissioning r []))

/-- LOCK_MARK_PROGRAMMED (R165). -/
def execLockMarkProgrammed (left : Option (Field Unit)) (s : State) : Host.Outcome State Fault Refusal :=
  match s.ctl.op with
  | some .programLock => .next (s.event (fun t => t.lockDone left))
  | _ => .next s

/-- APPLY (R164). -/
def execApply (r : Request) (s : State) : Host.Outcome State Fault Refusal :=
  .next (s.event (fun t => t.takeRequest .apply r []))

/-- CONFIGURE (R165). -/
def execConfigure (r : Request) (s : State) : Host.Outcome State Fault Refusal :=
  .next (s.event (fun t => t.takeRequest .configure r []))

end Sys2Proof.Machine
end

