-- ==== Sys2Proof/Machine/Dispatch.lean ====
section
/-! DEFINITION. The meaning of every command: one arm per constructor of `Instr`, one definition per arm. -/

namespace Sys2Proof.Machine

def exec (i : Instr) (s : State) : Host.Outcome State Fault Refusal :=
  match i with
  | .powerOn => Sys2Proof.Machine.execPowerOn s
  | .powerLoss cut => Sys2Proof.Machine.execPowerLoss cut s
  | .laneResetAssert cut => Sys2Proof.Machine.execLaneResetAssert cut s
  | .laneResetRelease => Sys2Proof.Machine.execLaneResetRelease s
  | .startUpComplete lost => Sys2Proof.Machine.execStartUpComplete lost s
  | .hcsFalling => Sys2Proof.Machine.execHcsFalling s
  | .hcsRising => Sys2Proof.Machine.execHcsRising s
  | .unknownKind kind r => Sys2Proof.Machine.execUnknownKind kind r s
  | .read r ups => Sys2Proof.Machine.execRead r ups s
  | .readOn r ups => Sys2Proof.Machine.execReadOn r ups s
  | .write r => Sys2Proof.Machine.execWrite r s
  | .exchange r ups => Sys2Proof.Machine.execExchange r ups s
  | .heldExchangeRead ups => Sys2Proof.Machine.execHeldExchangeRead ups s
  | .fill r => Sys2Proof.Machine.execFill r s
  | .fillPage => Sys2Proof.Machine.execFillPage s
  | .drain => Sys2Proof.Machine.execDrain s
  | .drainAge => Sys2Proof.Machine.execDrainAge s
  | .close r => Sys2Proof.Machine.execClose r s
  | .signature ups => Sys2Proof.Machine.execSignature ups s
  | .cycleRecord r => Sys2Proof.Machine.execCycleRecord r s
  | .enter r => Sys2Proof.Machine.execEnter r s
  | .queryWindowEnd => Sys2Proof.Machine.execQueryWindowEnd s
  | .withdraw r => Sys2Proof.Machine.execWithdraw r s
  | .restart r => Sys2Proof.Machine.execRestart r s
  | .cancelCheckpoint r => Sys2Proof.Machine.execCancelCheckpoint r s
  | .checkpointStatus r => Sys2Proof.Machine.execCheckpointStatus r s
  | .restorePage r => Sys2Proof.Machine.execRestorePage r s
  | .pageRestoreReadDone lost => Sys2Proof.Machine.execPageRestoreReadDone lost s
  | .pageRestoreWrite => Sys2Proof.Machine.execPageRestoreWrite s
  | .restoreImage r => Sys2Proof.Machine.execRestoreImage r s
  | .imageRestoreReadDone lost => Sys2Proof.Machine.execImageRestoreReadDone lost s
  | .imageRestoreWrite => Sys2Proof.Machine.execImageRestoreWrite s
  | .join r => Sys2Proof.Machine.execJoin r s
  | .faultFrame r => Sys2Proof.Machine.execFaultFrame r s
  | .releaseFault r => Sys2Proof.Machine.execReleaseFault r s
  | .faultSets r => Sys2Proof.Machine.execFaultSets r s
  | .clearAccrued r => Sys2Proof.Machine.execClearAccrued r s
  | .setAlertMask r => Sys2Proof.Machine.execSetAlertMask r s
  | .status r => Sys2Proof.Machine.execStatus r s
  | .readCommissioning r => Sys2Proof.Machine.execReadCommissioning r s
  | .writeCommissioning r => Sys2Proof.Machine.execWriteCommissioning r s
  | .commissioningEraseDone left => Sys2Proof.Machine.execCommissioningEraseDone left s
  | .commissioningProgramDone left => Sys2Proof.Machine.execCommissioningProgramDone left s
  | .lockCommissioning r => Sys2Proof.Machine.execLockCommissioning r s
  | .lockMarkProgrammed left => Sys2Proof.Machine.execLockMarkProgrammed left s
  | .apply r => Sys2Proof.Machine.execApply r s
  | .configure r => Sys2Proof.Machine.execConfigure r s
  | .patrolTimerExpiry => Sys2Proof.Machine.execPatrolTimerExpiry s
  | .patrolVisit ups => Sys2Proof.Machine.execPatrolVisit ups s
  | .decayTimerExpiry => Sys2Proof.Machine.execDecayTimerExpiry s
  | .capture ups => Sys2Proof.Machine.execCapture ups s
  | .beginFieldsProgrammed left => Sys2Proof.Machine.execBeginFieldsProgrammed left s
  | .checkpointPageProgrammed left => Sys2Proof.Machine.execCheckpointPageProgrammed left s
  | .completionMarkProgrammed left => Sys2Proof.Machine.execCompletionMarkProgrammed left s
  | .abandonMarkProgrammed left => Sys2Proof.Machine.execAbandonMarkProgrammed left s
  | .preEraseSectorErased left => Sys2Proof.Machine.execPreEraseSectorErased left s
  | .transferOut ups => Sys2Proof.Machine.execTransferOut ups s
  | .transferIn => Sys2Proof.Machine.execTransferIn s
  | .joinCheckGrant ups => Sys2Proof.Machine.execJoinCheckGrant ups s
  | .joinIdleTimeout => Sys2Proof.Machine.execJoinIdleTimeout s
  | .voteWindowExpiry => Sys2Proof.Machine.execVoteWindowExpiry s
  | .permitHalfPeriod => Sys2Proof.Machine.execPermitHalfPeriod s
  | .announce f => Sys2Proof.Machine.execAnnounce f s
  | .query f => Sys2Proof.Machine.execQuery f s
  | .state f => Sys2Proof.Machine.execState f s
  | .joinAsk f => Sys2Proof.Machine.execJoinAsk f s
  | .joinGrant f => Sys2Proof.Machine.execJoinGrant f s
  | .joinRefuse f => Sys2Proof.Machine.execJoinRefuse f s
  | .page f => Sys2Proof.Machine.execPage f s
  | .pageAgain f => Sys2Proof.Machine.execPageAgain f s
  | .joinFinal f => Sys2Proof.Machine.execJoinFinal f s
  | .joinAbort f => Sys2Proof.Machine.execJoinAbort f s
  | .laneFrameFaulty kind f => Sys2Proof.Machine.execLaneFrameFaulty kind f s
  | .laneCharTimeout port => Sys2Proof.Machine.execLaneCharTimeout port s
  | .portFrameSent port => Sys2Proof.Machine.execPortFrameSent port s
  | .markerInsideFrame port => Sys2Proof.Machine.execMarkerInsideFrame port s
  | .replySentWhole => Sys2Proof.Machine.execReplySentWhole s

end Sys2Proof.Machine
end

