-- ==== Sys2Proof/Safety.lean ====
section
/-! DEFINITION. What the model counts as safe, in the terms its statements use: the output lines say what the state says, the bounded
stores keep their bounds, and the memory tables keep their canonical form; and the conditions under which the statements
follow a command: a request that is served, and a part in which an event sets nothing else off. -/

namespace Sys2Proof.Machine

/-! ### Invariants -/

/-- The output lines follow the conditions that R90, R145 and R166 give them. -/
abbrev State.linesTrue (s : State) : Prop :=
  s.pins.permit = s.permitCond ∧ s.pins.alert = s.alertCond ∧ s.pins.started = decide (s.phase = .running) ∧
    (s.pins.permitHigh = true → s.pins.permit = true)

/-- Nothing of an event is left between steps: no answer waits to be built and no frame is owed. -/
abbrev State.quiet (s : State) : Prop := s.link.answer = none ∧ s.notes.moved = false ∧ s.notes.withdrawn = false

/-- What holds between two steps of the output lines and of what an event leaves behind. -/
abbrev State.settledOutputs (s : State) : Prop := s.linesTrue ∧ s.quiet

/-- The image store's table has its canonical form. -/
def State.imageWf (s : State) : Bool := tabWf none s.image

/-- The page state table has its canonical form. -/
def State.pagesWf (s : State) : Bool := tabWf PageRec.fresh s.pages

/-- Fault pressure and the abstain count lie in their ranges (R45, R58). -/
abbrev State.countsBounded (s : State) : Prop := s.pressure.p ≤ Config.pressureTop ∧ s.lane.abstain ≤ 7

/-- The entries and cells that the request in hand has yet to post (R19). -/
def State.entriesOwed (s : State) : Nat :=
  match s.link.job with
  | some (.exchange ..) => 1
  | _ => 0

/-- The write queue holds no more than 8 entries and 64 cells, with what a waiting EXCHANGE has yet to post (R20). -/
abbrev State.queueBounded (s : State) : Prop :=
  s.queue.entries.length + s.entriesOwed ≤ Config.queueEntries ∧
    queueCellCount s.queue.entries + s.entriesOwed ≤ Config.queueCells

/-- The lists of 1.7 keep their capacities, and no cell stands twice on the suspect list (R28, R43, R61, R104, R111, R132). -/
abbrev State.listsBounded (s : State) : Prop :=
  s.suspects.length ≤ Config.suspectCells ∧ s.suspects.Nodup ∧ s.journal.records.length ≤ Config.journalRecords ∧
    s.lane.history.length ≤ Config.historyRecords ∧ s.rest.list.length ≤ Config.restoreListPages ∧
    s.ckpt.buffer.length ≤ Config.captureBuffer ∧ s.xfer.inbound.length ≤ Config.inboundFrames

/-- Every bounded store and count keeps its bound. -/
abbrev State.bounded (s : State) : Prop := s.countsBounded ∧ s.queueBounded ∧ s.listsBounded

/-! ### Conditions of the statements -/

/-- A complete request of kind `k` reaches the handling of its kind (R154, R155) in a running part whose outputs are settled and in
which no other request waits. -/
abbrev State.serves (s : State) (k : ReqKind) (r : Request) : Prop :=
  s.phase = .running ∧ s.link.phase = .receiving ∧ s.link.job = none ∧ s.link.second = none ∧ s.settledOutputs ∧
    requestSound k.code r = true ∧ r.body.length ≤ Config.bodyBytes ∧ k.fits r.body = true

/-- The command by which a complete request of a kind is taken, with the upsets that have struck the store by then. -/
def requestCommand (k : ReqKind) (r : Request) (ups : List Upset) : Instr :=
  match k with
  | .read => .read r ups
  | .readOn => .readOn r ups
  | .write => .write r
  | .exchange => .exchange r ups
  | .fill => .fill r
  | .close => .close r
  | .cycleRecord => .cycleRecord r
  | .enter => .enter r
  | .withdraw => .withdraw r
  | .restart => .restart r
  | .cancelCheckpoint => .cancelCheckpoint r
  | .checkpointStatus => .checkpointStatus r
  | .restorePage => .restorePage r
  | .restoreImage => .restoreImage r
  | .join => .join r
  | .faultFrame => .faultFrame r
  | .releaseFault => .releaseFault r
  | .faultSets => .faultSets r
  | .clearAccrued => .clearAccrued r
  | .setAlertMask => .setAlertMask r
  | .status => .status r
  | .readCommissioning => .readCommissioning r
  | .writeCommissioning => .writeCommissioning r
  | .lockCommissioning => .lockCommissioning r
  | .apply => .apply r
  | .configure => .configure r

/-- A READ, READ ON or EXCHANGE waits for its host read grant (R16). -/
def State.readWaits (s : State) : Bool :=
  match s.link.job with
  | some (.read ..) => true
  | some (.exchange _ _ _ _ _ held _) => !held
  | _ => false

/-- No second request is held and no host read waits for its grant (R16, R156). -/
abbrev State.readsDone (s : State) : Prop := s.link.second = none ∧ s.readWaits = false

/-- A running part between two events, in which no host read waits. -/
abbrev State.ready (s : State) : Prop := s.phase = .running ∧ s.settledOutputs ∧ s.readsDone

/-- No block has anything to begin in the state as it stands: every such check leaves it as it is. -/
abbrev State.settled (s : State) : Prop := s.settle = s

/-- No close is ready to sign, its closing entries drained, or at the end of its closing pass (R55, R131). -/
def State.closeStands (s : State) : Bool :=
  match s.lane.close with
  | none => true
  | some c =>
    (c.stage != .draining || s.queue.entries.any (fun e => e.closing)) &&
      (c.stage != .closingPass || s.xfer.role != .donor || s.xfer.closing != [])

/-- A checkpoint in flight, if any, neither fails for its source nor has a page to pass over or a program to ask for
(R101, R103 to R105). -/
def State.flightStands (s : State) : Bool :=
  match s.ckpt.state with
  | .idle => true
  | .erasing => true
  | .finishing => !s.uncapturedPages.any s.unrestorable
  | .capturing =>
    !s.uncapturedPages.any s.unrestorable &&
      (s.uncapturedPages == [] || s.uncapturedPages.any (fun p => decide ((s.page p).state ≠ .unset))) &&
      (!s.ckpt.begun || s.ckpt.asked || (s.ckpt.buffer == [] && s.uncapturedPages != []))

/-- A donation, if any, has pages of its pass left, or has caught up (R130). -/
def State.donorStands (s : State) : Bool :=
  s.xfer.role != .donor || s.closingPassRuns || s.xfer.plan != [] ||
    (decide (s.xfer.resend.length ≤ Config.closingPages) && s.xfer.caughtUp)

/-- A join check, if any, has begun or waits for the inbound list (R135). -/
def State.checkStands (s : State) : Bool :=
  s.xfer.role != .receiver .checking || s.xfer.checkBegun || s.xfer.inbound != []

/-- The high-mark run is what the occupancy makes it (R22). -/
def State.runStands (s : State) : Bool :=
  if s.highMark ≤ s.queue.entries.length then s.queue.run
  else if s.queue.entries.length ≤ s.lowMark then !s.queue.run
  else true

/-- The pre-erase has nothing to start (R98). -/
def State.eraseStands (s : State) : Bool :=
  s.ckpt.state != .idle || s.ckpt.hold ||
    ((s.ckpt.slot s.ckpt.inactive).state != .invalid && (s.ckpt.slot s.ckpt.inactive).state != .complete)

/-- No block has work that the event in hand would make it begin: no close is about to sign or to end its closing pass, no
restore can be taken, and a checkpoint, a donation, a join check, the high-mark run and the pre-erase stand as they are. -/
abbrev State.still (s : State) : Prop :=
  s.closeStands = true ∧ (s.rest.op ≠ .none ∨ s.rest.list = []) ∧ s.flightStands = true ∧ s.donorStands = true ∧
    s.checkStands = true ∧ s.runStands = true ∧ s.eraseStands = true

/-- The state `u` with the reply to a request begun (R156 to R158), its summary taken from `u`. -/
def State.replying (u : State) (k : ReqKind) (tag : Byte) (st : Status) (b : ReplyBody) : State :=
  u.setLink { u.link with
    phase := .replying, live := true, answer := none,
    reply := some { kind := k.code, tag := tag, status := st, summary := some (u.summary b.stale), body := b } }

/-- The state `u` with a request in hand that waits for its reply (R156). -/
def State.waiting (u : State) (j : Job) : State :=
  u.setLink { u.link with phase := .working, live := true, job := some j }

/-- The run flag that R22 gives for `n` entries. -/
def State.runAt (s : State) (n : Nat) : Bool :=
  if s.highMark ≤ n then true else if n ≤ s.lowMark then false else s.queue.run

/-- The arbiter may grant a host-side request (R16 step 1). -/
abbrev State.hostMay (s : State) : Prop := s.nonHostWaits = false ∨ s.hostGrants < 4

/-- The count of host-side grants after one more (R16). -/
def State.hostGrantsNext (s : State) : Nat := if s.nonHostWaits = true then s.hostGrants + 1 else 0

/-- A drain may be granted that writes the entry `e` at the head of the queue, with `rest` behind it (R22 to R26): no host read or
fill waits, the arbiter may grant a host-side request, a closing entry or a trigger makes the drain due, and the entry's page
is mapped, SOUND, SUSPECT or STALE, and not uncaptured. -/
abbrev State.drains (s : State) (e : Entry) (rest : List Entry) : Prop :=
  s.hostReadWaits = false ∧ s.fillWaits = false ∧ s.hostMay ∧ s.queue.entries = e :: rest ∧
    (e.closing = true ∨ (s.holdStands = false ∧ (s.queue.run = true ∨ ∃ x ∈ e :: rest, s.holdTime ≤ x.age))) ∧
    s.mapped e.page = true ∧ (s.page e.page).state ≠ .unset ∧ (s.page e.page).state ≠ .restoring ∧
    (s.page e.page).uncaptured = false

/-- The suspect list without the cells of an entry (R27 step 1). -/
def State.suspectsOutside (s : State) (e : Entry) : List Nat :=
  s.suspects.filter (fun a =>
    !(decide (e.page * 64 + e.offset ≤ a) && decide (a < e.page * 64 + e.offset + e.values.length)))

/-- The image `m` and the page table `g` are those of `s` with the entry `e` written (R27 steps 1 to 3): its cells hold its values;
its page is dirty and written, and SOUND unless it was SUSPECT and still has a suspect cell or its suspect-all flag. -/
abbrev State.entryWritten (s : State) (e : Entry) (m : List (Nat × Option StoredCell)) (g : List (Nat × PageRec)) : Prop :=
  (∀ b, (s.setImage m).cell b =
    if h : e.page * 64 + e.offset ≤ b ∧ b < e.page * 64 + e.offset + e.values.length then
      { value := e.values[b - (e.page * 64 + e.offset)]'(by omega), damage := .intact }
    else s.cell b) ∧
  (∀ q, (s.setPages g).page q =
    if q = e.page then
      { s.page q with
        state :=
          if (s.page q).state = .suspect ∧ ((s.page q).suspectAll = true ∨ ∃ a ∈ s.suspectsOutside e, a / 64 = q) then
            .suspect
          else .sound
        dirty := true, written := true }
    else s.page q)

/-- The state after a drain of `e`, with the image and the page table it leaves: the entry's cells off the suspect list and the
entry out of the queue (R27). The journal is as before. -/
def State.drained (s : State) (e : Entry) (rest : List Entry) (m : List (Nat × Option StoredCell))
    (g : List (Nat × PageRec)) : State :=
  { s with
    image := m, pages := g, suspects := s.suspectsOutside e, hostGrants := s.hostGrantsNext
    queue := { entries := rest, run := s.runAt rest.length } }

/-- The closing entries drain, and none is left but the head entry in front of `rest` (R55). -/
abbrev State.lastClosing (s : State) (c : Close) (rest : List Entry) : Prop :=
  s.lane.close = some c ∧ c.stage = .draining ∧ ∀ x ∈ rest, x.closing = false

/-- A close with an undecided vote whose closing pass ends: the hold is released and the cycle is the last closed (R60). -/
def State.closingPassOver (s : State) (c : Close) : State :=
  { s with lane := { s.lane with lastClosed := c.cycle, close := some { c with stage := .closed } } }

/-- What a host read shows at a cell that is sound: the newest queued value, or the stored value (R10, R11). -/
def State.seen (s : State) (a : Nat) : Word :=
  match s.forwarded a with
  | some v => v
  | none => (s.cell a).value

/-- A cell that a host read serves without a fault and without a correction (R11). -/
abbrev State.soundAt (s : State) (a : Nat) : Prop :=
  (s.forwarded a).isSome = true ∨
    ((s.page (a / 64)).suspectAll = false ∧ a ∉ s.suspects ∧ (s.cell a).damage = .intact)

/-- The state after one raise of kind `k` with weight `w` that takes fault pressure neither to 512 nor to 768 (R142, R46, R48). -/
def State.raised (s : State) (k : FaultKind) (w : Nat) : State :=
  { s with
    faults := { s.faults with
      current := s.faults.current ||| k.bit, accrued := s.faults.accrued ||| k.bit, any := true }
    pressure := { s.pressure with p := s.pressure.p + w }
    patrol := { s.patrol with pace := if w = 0 then s.patrol.pace else paceAfter (s.pressure.p + w) s.patrol.pace } }

/-- The state with a frame in its empty primary slot (R149 case 1). -/
def State.framed (s : State) (f : FaultFrame) : State := { s with faults := { s.faults with primary := some f } }

/-- The state with a frame in its empty secondary slot, behind the one in the primary (R149 case 2). -/
def State.framedBehind (s : State) (f : FaultFrame) : State := { s with faults := { s.faults with secondary := some f } }

/-- The state with the ALERT line at what the fault store makes it (R145). -/
def State.withAlert (s : State) : State :=
  { s with pins := { s.pins with alert := (s.faults.accrued &&& s.faults.mask) != 0 || s.faults.primary.isSome } }

/-- The state with the output lines at what R90, R145 and R166 make them. -/
def State.withLines (s : State) : State :=
  let permit := s.lane.state = .active && s.comm.locked && s.lane.permitMark
  { s with
    pins := {
      started := decide (s.phase = .running)
      alert := (s.faults.accrued &&& s.faults.mask) != 0 || s.faults.primary.isSome
      permit := permit
      permitHigh := permit && (s.pins.permitHigh || !s.pins.permit) } }

/-- A lane frame of kind `code` passes every test of its port (R69) at a running part between two events, the sender being the
lane that a part of lane `n` expects there (R68). -/
abbrev State.takesFrame (s : State) (n : Nat) (code : Byte) (f : RxFrame) : Prop :=
  s.ready ∧ s.laneNumber = some n ∧ f.check = frameCheck (laneChecked f.lane code f.body) ∧
    laneBodyLength code = some f.body.length ∧ f.lane = byteOf (expectedLane n f.port)

/-- The state once a port has ended the frame it was taking. -/
def State.heard (s : State) (p : PortId) : State :=
  { s with ports := s.ports.put p { s.ports.at p with taking := false } }

/-- The state with the transfer engine's role none and the values of R124. -/
def State.freed (s : State) : State :=
  { s with
    xfer := Transfer.fresh
    lane := { s.lane with
      peer1 := { s.lane.peer1 with relation := .none }
      peer2 := { s.lane.peer2 with relation := .none } } }

/-- A reception is over: role none, JOIN_FAILED with weight 16, and its TRANSFER frame in the empty primary slot (R137). -/
def State.receptionOver (s : State) (page : Option Nat) (why : Reason) : State :=
  (s.freed.raised .joinFailed 16).framed (.transfer .joinFailed .receive page none 0 why)

/-- A donation is over for a cause of R138. -/
def State.donationLost (s : State) (page : Option Nat) (retry : Nat) (why : Reason) : State :=
  (s.freed.raised .joinFailed 16).framed (.transfer .joinFailed .donate page none retry why)

/-- The lane outside FORMING and ACTIVE in state `x`, both slots of both peers empty (R76). -/
def State.rested (s : State) (x : LaneState) : State :=
  { s with
    lane := { s.lane with
      state := x
      peer1 := { s.lane.peer1 with pending := none, early := none }
      peer2 := { s.lane.peer2 with pending := none, early := none } } }

/-- The lane comes back from JOINING to STANDBY and says so on both ports (R70, R137). -/
def State.backToStandby (s : State) : State := (s.rested .standby).handBoth (.state .standby s.lane.lastClosed)

/-- A fault of weight `w` can be raised with P staying below 512, and its frame finds the primary slot empty. -/
abbrev State.roomFor (s : State) (w : Nat) : Prop := s.faults.primary = none ∧ s.pressure.p + w < 512

end Sys2Proof.Machine
end

