-- ==== Sys2Proof/WellFormed.lean ====
section
/-! DEFINITION. What a command must satisfy to be one that the part's surroundings can send: lengths and ranges of its operands. The
machine takes every command, well formed or not; these checks say which ones stand for something. -/

namespace Sys2Proof

namespace WellFormed

/-- A body whose length the two-byte length field can give (10.1, R168). -/
def body (b : List Byte) : Bool := decide (b.length ≤ 65535)

/-- A host request: its body's length fits the field. -/
def request (r : Request) : Bool := body r.body

/-- A lane frame: its body's length fits the field. -/
def frame (f : RxFrame) : Bool := body f.body

/-- An upset strikes a cell of the image. -/
def upset (u : Upset) : Bool := decide (u.cell < 16384)

def upsets (ups : List Upset) : Bool := ups.all upset

/-- An UNKNOWN_KIND request has a kind byte that names no kind, or a check that fails, or comes during start-up (which depends
on the part and is not tested here): a byte that names a kind is a command of its own. -/
def unknownKind (kind : Byte) (r : Request) : Bool :=
  request r && ((Machine.ReqKind.ofCode kind).isNone || !Machine.requestSound kind r)

/-- A page place that reads as a record gives a page and 64 cells (R91, R92). -/
def place : Place → Bool
  | .record p cells => decide (p < 256) && decide (cells.length = 64)
  | .erased => true
  | .checkFailure => true

/-- A region entry's bytes. -/
def region (r : Region) : Bool := decide (r.number < 256) && decide (r.first < 256) && decide (r.last < 256)

/-- A commissioning record whose fields have their stored ranges (R161), with at most the 60 entries a body can carry. -/
def commRecord (r : CommRecord) : Bool :=
  decide (r.lane < 256) && decide (r.station < 65536) && decide (r.voteWindow < 256) && decide (r.abstainLimit < 256) &&
    decide (r.patrolBase < 256) && decide (r.decayPeriod < 256) && decide (r.highMark < 256) && decide (r.lowMark < 256) &&
    decide (r.holdTime < 256) && decide (r.retryLimit < 256) && decide (r.regions.length ≤ 60) && r.regions.all region

/-- What the record's place reads as. -/
def recordPlace : RecordPlace → Bool
  | .record r _ => commRecord r
  | .erased => true
  | .checkFailure => true

/-- What a header field of begin fields reads as: its start sequence has four bytes (R28). -/
def beginField : Field BeginFields → Bool
  | .whole f => decide (f.start ≤ 4294967295)
  | .erased => true
  | .damaged => true

/-- What a sector reads as after an erase: 16 places, or a header (R91). -/
def sector : SectorLeft → Bool
  | .data places => decide (places.length = 16) && places.all place
  | .header b _ _ _ => beginField b

/-- An optional operand, well formed where it is present. -/
def opt {α : Type} (f : α → Bool) : Option α → Bool
  | none => true
  | some a => f a

/-- A cut erase says how at most the 16 places of a sector read (R93), the upsets strike cells, and a request that had been
completed fits its field. -/
def cut (c : Cut) : Bool := decide (c.cuts.length ≤ 16) && upsets c.ups && opt (fun x => request x.2) c.read

end WellFormed

/-- A well-formed command. -/
def Instr.wellFormed : Instr → Bool
  | .powerOn => true
  | .powerLoss c => WellFormed.cut c
  | .laneResetAssert c => WellFormed.cut c
  | .laneResetRelease => true
  | .startUpComplete _ => true
  | .hcsFalling => true
  | .hcsRising => true
  | .unknownKind k r => WellFormed.unknownKind k r
  | .read r ups => WellFormed.request r && WellFormed.upsets ups
  | .readOn r ups => WellFormed.request r && WellFormed.upsets ups
  | .write r => WellFormed.request r
  | .exchange r ups => WellFormed.request r && WellFormed.upsets ups
  | .heldExchangeRead ups => WellFormed.upsets ups
  | .fill r => WellFormed.request r
  | .fillPage => true
  | .drain => true
  | .drainAge => true
  | .close r => WellFormed.request r
  | .signature ups => WellFormed.upsets ups
  | .cycleRecord r => WellFormed.request r
  | .enter r => WellFormed.request r
  | .queryWindowEnd => true
  | .withdraw r => WellFormed.request r
  | .restart r => WellFormed.request r
  | .cancelCheckpoint r => WellFormed.request r
  | .checkpointStatus r => WellFormed.request r
  | .restorePage r => WellFormed.request r
  | .pageRestoreReadDone _ => true
  | .pageRestoreWrite => true
  | .restoreImage r => WellFormed.request r
  | .imageRestoreReadDone _ => true
  | .imageRestoreWrite => true
  | .join r => WellFormed.request r
  | .faultFrame r => WellFormed.request r
  | .releaseFault r => WellFormed.request r
  | .faultSets r => WellFormed.request r
  | .clearAccrued r => WellFormed.request r
  | .setAlertMask r => WellFormed.request r
  | .status r => WellFormed.request r
  | .readCommissioning r => WellFormed.request r
  | .writeCommissioning r => WellFormed.request r
  | .commissioningEraseDone l => WellFormed.opt (fun x => WellFormed.recordPlace x.record) l
  | .commissioningProgramDone l => WellFormed.opt WellFormed.recordPlace l
  | .lockCommissioning r => WellFormed.request r
  | .lockMarkProgrammed _ => true
  | .apply r => WellFormed.request r
  | .configure r => WellFormed.request r
  | .patrolTimerExpiry => true
  | .patrolVisit ups => WellFormed.upsets ups
  | .decayTimerExpiry => true
  | .capture ups => WellFormed.upsets ups
  | .beginFieldsProgrammed l => WellFormed.opt WellFormed.beginField l
  | .checkpointPageProgrammed l => WellFormed.opt WellFormed.place l
  | .completionMarkProgrammed _ => true
  | .abandonMarkProgrammed _ => true
  | .preEraseSectorErased l => WellFormed.opt WellFormed.sector l
  | .transferOut ups => WellFormed.upsets ups
  | .transferIn => true
  | .joinCheckGrant ups => WellFormed.upsets ups
  | .joinIdleTimeout => true
  | .voteWindowExpiry => true
  | .permitHalfPeriod => true
  | .announce f => WellFormed.frame f
  | .query f => WellFormed.frame f
  | .state f => WellFormed.frame f
  | .joinAsk f => WellFormed.frame f
  | .joinGrant f => WellFormed.frame f
  | .joinRefuse f => WellFormed.frame f
  | .page f => WellFormed.frame f
  | .pageAgain f => WellFormed.frame f
  | .joinFinal f => WellFormed.frame f
  | .joinAbort f => WellFormed.frame f
  | .laneFrameFaulty _ f => WellFormed.frame f
  | .laneCharTimeout _ => true
  | .portFrameSent _ => true
  | .markerInsideFrame _ => true
  | .replySentWhole => true

end Sys2Proof
end

