-- ==== Sys2Proof/Certificates/Slice0/Obligations.lean ====
section
/-! DEFINITION. The statements for the provers: what the rules of spec/ say the part does. Each docstring names the rules its
statement formalises (a statement "from" a rule states a part of it), or says that it states the model's own choice. A
request statement is about every request that is served (`State.serves`): checked, of a length its kind can take, in a
running part in which no other request waits. -/

open Sys2Proof Sys2Proof.Machine

/-! ### The fault store and the reports (chapters 6, 9, 10) -/

/-- R150, R152. FAULT FRAME and FAULT SETS are served with status OK in every lane state and change nothing but the reply that is
begun; the first gives NONE, CLEAR or the primary frame with its two flags, the second the three sets and the two flags. -/
def Obligations.FaultFrameAndFaultSetsReadTheStore : Prop :=
  ∀ (s : State) (r : Request),
    (s.serves .faultFrame r →
      (s.faults.primary = none → s.faults.any = false →
        exec (.faultFrame r) s = .next (s.replying .faultFrame r.tag .ok .noFrame)) ∧
      (s.faults.primary = none → s.faults.any = true →
        exec (.faultFrame r) s = .next (s.replying .faultFrame r.tag .ok .clearFrame)) ∧
      (∀ f, s.faults.primary = some f →
        exec (.faultFrame r) s =
          .next (s.replying .faultFrame r.tag .ok (.faultFrame s.faults.secondary.isSome s.faults.lost f)))) ∧
    (s.serves .faultSets r →
      exec (.faultSets r) s = .next (s.replying .faultSets r.tag .ok
        (.faultSets s.faults.current s.faults.accrued s.faults.mask s.faults.lost s.faults.any)))

/-- R151. RELEASE FAULT with the primary slot empty is refused NOT_HELD and changes nothing. Otherwise the secondary frame moves into
the primary slot, the frame-lost indicator is cleared when both slots are then empty and kept when a frame moved up, ALERT is
re-evaluated, and nothing else changes but the reply. -/
def Obligations.ReleaseFaultMovesTheSecondaryUp : Prop :=
  ∀ (s : State) (r : Request), s.serves .releaseFault r →
    (s.faults.primary = none → exec (.releaseFault r) s = .next (s.replying .releaseFault r.tag .notHeld .empty)) ∧
    (∀ f, s.faults.primary = some f →
      exec (.releaseFault r) s = .next
        (({ s with
            faults := { s.faults with
              primary := s.faults.secondary, secondary := none,
              lost := if s.faults.secondary = none then false else s.faults.lost }
            pins := { s.pins with
              alert := (s.faults.accrued &&& s.faults.mask) != 0 || s.faults.secondary.isSome } } : State).replying
          .releaseFault r.tag .ok .empty))

/-- From R143 and R144. CLEAR ACCRUED empties the current and accrued sets; SET ALERT MASK with only codes of the 21 kinds makes the
mask exactly the set its list names, and with any other code is refused BAD_FIELD. ALERT is re-evaluated, and nothing else
changes but the reply. That a list of 22 or more codes, or one that names a kind twice, is taken likewise is the model's
choice (log entry 24). -/
def Obligations.ClearAccruedAndSetAlertMaskWriteTheSets : Prop :=
  ∀ (s : State) (r : Request),
    (s.serves .clearAccrued r →
      exec (.clearAccrued r) s = .next
        (({ s with
            faults := { s.faults with current := 0, accrued := 0 }
            pins := { s.pins with alert := s.faults.primary.isSome } } : State).replying .clearAccrued r.tag .ok .empty)) ∧
    (s.serves .setAlertMask r →
      ((∃ b ∈ r.body, b.toNat = 0 ∨ 21 < b.toNat) →
        exec (.setAlertMask r) s = .next (s.replying .setAlertMask r.tag .badField .empty)) ∧
      ((∀ b ∈ r.body, 1 ≤ b.toNat ∧ b.toNat ≤ 21) →
        ∃ m : KindSet, (∀ i : Nat, i < 21 → (m.getLsbD i = true ↔ BitVec.ofNat 8 (i + 1) ∈ r.body)) ∧
          exec (.setAlertMask r) s = .next
            (({ s with
                faults := { s.faults with mask := m }
                pins := { s.pins with alert := (s.faults.accrued &&& m) != 0 || s.faults.primary.isSome } } :
                  State).replying .setAlertMask r.tag .ok .empty)))

/-- From R62. CYCLE RECORD gives the newest record, or the newest with the cycle number it carries, is refused NOT_FOUND where there is
none, and changes nothing but the reply. -/
def Obligations.CycleRecordGivesTheNewestRecord : Prop :=
  ∀ (s : State) (r : Request), s.serves .cycleRecord r →
    (r.body = [] → s.lane.history = [] →
      exec (.cycleRecord r) s = .next (s.replying .cycleRecord r.tag .notFound .empty)) ∧
    (∀ older x, r.body = [] → s.lane.history = older ++ [x] →
      exec (.cycleRecord r) s = .next (s.replying .cycleRecord r.tag .ok (.cycleRecord x))) ∧
    (∀ c1 c0 : Byte, r.body = [c1, c0] → (∀ x ∈ s.lane.history, x.cycle ≠ half c1 c0) →
      exec (.cycleRecord r) s = .next (s.replying .cycleRecord r.tag .notFound .empty)) ∧
    (∀ (c1 c0 : Byte) older x newer, r.body = [c1, c0] → s.lane.history = older ++ x :: newer → x.cycle = half c1 c0 →
      (∀ y ∈ newer, y.cycle ≠ half c1 c0) →
      exec (.cycleRecord r) s = .next (s.replying .cycleRecord r.tag .ok (.cycleRecord x)))

/-- R159, and from R109. STATUS and CHECKPOINT STATUS are served with status OK in every lane state, change nothing but the reply, and give the
items the two rules list. -/
def Obligations.StatusRequestsShowThePart : Prop :=
  ∀ (s : State) (r : Request),
    (s.serves .status r →
      exec (.status r) s = .next (s.replying .status r.tag .ok (.status
        { state := s.lane.state, lastClosed := s.lane.lastClosed, lane := s.comm.inUse.map (fun x => x.lane),
          peer1 := s.lane.peer1, peer2 := s.lane.peer2, occupancy := s.queue.entries.length,
          cells := (s.queue.entries.map (fun e => e.values.length)).sum, journal := s.journal.state,
          records := s.journal.records.length, next := s.journal.next, suspects := s.suspects.length,
          restoreList := s.rest.list.length, last := s.rest.last, role := s.xfer.role,
          partner := s.xfer.partner.map (fun x => x.1), pass := s.xfer.pass,
          pagesLeft := s.xfer.plan.length + s.xfer.closing.length, received := s.xfer.received.length,
          engine := s.ckpt.state, p := s.pressure.p }))) ∧
    (s.serves .checkpointStatus r →
      exec (.checkpointStatus r) s = .next (s.replying .checkpointStatus r.tag .ok (.checkpointStatus
        { state := s.ckpt.state, active := s.ckpt.active, slot0 := s.ckpt.slot0, slot1 := s.ckpt.slot1,
          captured := s.ckpt.captured, toCapture := s.ckpt.toCapture, occupancy := s.ckpt.buffer.length,
          erased := s.ckpt.erased, hold := s.ckpt.hold })))

/-! ### Reads, writes, exchanges and fills (chapters 1 and 2) -/

/-- R17, and from R18. WRITE: the eight checks in order, of which the first that fails gives the status and leaves the queue, the image and the
journal alone; an accepted WRITE is one new entry at the tail, with its closing mark clear. Every WRITE sets the read cursor
to none. (A page byte is never above 255.) -/
def Obligations.WriteIsCheckedThenPosted : Prop :=
  ∀ (s : State) (r : Request) (p o : Byte) (vs : List Word),
    s.serves .write r → r.body = p :: o :: bytesOfWords vs →
    let u := { s with link := { s.link with cursor := none } }
    exec (.write r) s = .next
      (if 63 < o.toNat then u.replying .write r.tag .badField .empty
      else if vs = [] ∨ 16 < vs.length then u.replying .write r.tag .badLength .empty
      else if 64 < o.toNat + vs.length then u.replying .write r.tag .span .empty
      else if s.lane.state = .config then u.replying .write r.tag .wrongState .empty
      else if s.mapped p.toNat = false then u.replying .write r.tag .unmapped .empty
      else if (s.page p.toNat).state = .unset then u.replying .write r.tag .pageUnset .empty
      else if s.isGuarded p.toNat = true ∧
          (s.lane.state = .joining ∨ s.lane.state = .excluded ∨ s.lane.state = .halted) then
        u.replying .write r.tag .guarded .empty
      else if 8 ≤ s.queue.entries.length ∨
          64 < (s.queue.entries.map (fun e => e.values.length)).sum + vs.length then
        u.replying .write r.tag .queueFull .empty
      else
        ({ u with
            queue := {
              entries := s.queue.entries ++
                [{ page := p.toNat, offset := o.toNat, values := vs, age := 0, closing := false }]
              run := s.runAt (s.queue.entries.length + 1) } } : State).replying .write r.tag .accepted .empty)

/-- From R9, R12 and R13. READ and READ ON: the checks in order, of which the first that fails gives the status, and nothing changes,
the read cursor included, but the reply. -/
def Obligations.RefusedReadsChangeNothing : Prop :=
  ∀ (s : State) (r : Request) (ups : List Upset) (st : Status), s.still →
    (∀ p o c w : Byte, s.serves .read r → r.body = [p, o, c, w] →
      (if 63 < o.toNat ∨ (w.toNat ≠ 0 ∧ w.toNat ≠ 8 ∧ w.toNat ≠ 16 ∧ w.toNat ≠ 32 ∧ w.toNat ≠ 64) then some Status.badField
      else if c.toNat = 0 then some .badLength
      else if s.lane.state = .config then some .wrongState
      else if s.mapped p.toNat = false then some .unmapped
      else if (s.page p.toNat).state = .unset then some .pageUnset
      else if (s.page p.toNat).state = .restoring then some .pageBusy
      else none) = some st →
      exec (.read r ups) s = .next (s.replying .read r.tag st .empty)) ∧
    (∀ c : Byte, s.serves .readOn r → r.body = [c] →
      (match s.link.cursor with
      | none => some Status.noCursor
      | some k =>
        if c.toNat = 0 then some .badLength
        else if s.lane.state = .config then some .wrongState
        else if s.mapped (k.addr / 64) = false then some .unmapped
        else if (s.page (k.addr / 64)).state = .unset then some .pageUnset
        else if (s.page (k.addr / 64)).state = .restoring then some .pageBusy
        else none) = some st →
      exec (.readOn r ups) s = .next (s.replying .readOn r.tag st .empty))

/-- From R9 to R13. READ and READ ON that pass their checks, where the arbiter may grant a host read and every cell to be served is
sound: without wrap the cells run upward from the start, at most 64 of them, not past the region's end and not into a page
that is UNSET or RESTORING; with wrap group g they go round the aligned group of g. The reply gives, in service order, the
newest queued value or else the stored value of each, with the STALE flag of their pages; the cursor moves behind the last
cell; and nothing else changes but the arbiter's count. -/
def Obligations.ReadsServeSoundCells : Prop :=
  ∀ (s : State) (r : Request) (k : ReqKind) (i : Instr) (start count wrap : Nat) (g : Region), s.still →
    s.serves k r → s.hostMay → s.lane.state ≠ .config → count ≠ 0 → s.regionOf (start / 64) = some g →
    ((∃ p o c w : Byte, k = .read ∧ i = .read r [] ∧ r.body = [p, o, c, w] ∧ start = p.toNat * 64 + o.toNat ∧
        o.toNat < 64 ∧ count = c.toNat ∧ wrap = w.toNat ∧
        (wrap = 0 ∨ wrap = 8 ∨ wrap = 16 ∨ wrap = 32 ∨ wrap = 64)) ∨
      (∃ c : Byte, k = .readOn ∧ i = .readOn r [] ∧ r.body = [c] ∧ count = c.toNat ∧
        s.link.cursor = some { addr := start, wrap := wrap })) →
    (s.page (start / 64)).state ≠ .unset → (s.page (start / 64)).state ≠ .restoring →
    let cells :=
      if wrap = 0 then
        ((List.range (min (min count 64) (g.last * 64 + 64 - start))).map (fun n => start + n)).takeWhile (fun a =>
          decide ((s.page (a / 64)).state ≠ .unset) && decide ((s.page (a / 64)).state ≠ .restoring))
      else (List.range (min count wrap)).map (fun n => start - start % wrap + (start % wrap + n) % wrap)
    (∀ a ∈ cells, s.soundAt a) →
    exec i s = .next
      (({ s with
          hostGrants := s.hostGrantsNext
          link := { s.link with
            cursor := some {
              addr := if wrap = 0 then start + cells.length
                else start - start % wrap + (start % wrap + cells.length) % wrap
              wrap := wrap } } } : State).replying k r.tag .ok
        (.read (cells.any (fun a => decide ((s.page (a / 64)).state = .stale))) [] (cells.map s.seen)))

/-- From R5, R11, R44, R111, R146 and R153. A READ or READ ON of one cell of the store, where the arbiter may grant it and no part
of the queue covers the cell. In a suspect-all page or on the suspect list, the cell is served as 4294967295 and faulted, and
nothing more. One that checks corrected is served with its value, rewritten, and CORRECTED raised. One that checks
uncorrectable is served as 4294967295 and faulted, joins the suspect list, makes its page SUSPECT, and raises UNCORRECTABLE
with an ACCESS frame; with the list full, the page's suspect-all flag is set instead, SUSPECT_OVERFLOW is raised too and the
frame carries that kind. A page of an auto-restore region goes to the end of the restore list, or keeps its place there; with
that list full RESTORE_FAILED is raised with its TRANSFER frame, which the model places before the ACCESS frame (log entry 43).
(Fault pressure stays below 512, no frame is held, and no join and no checkpoint runs; for an auto-restore region an
operation of the restore engine is in progress.) -/
def Obligations.ReadOfADamagedCellIsFaultedOrCorrected : Prop :=
  ∀ (s : State) (r : Request) (k : ReqKind) (i : Instr) (a : Nat), s.still → s.serves k r → s.hostMay →
    s.lane.state ≠ .config → s.mapped (a / 64) = true →
    (s.page (a / 64)).state ≠ .unset → (s.page (a / 64)).state ≠ .restoring → s.forwarded a = none →
    s.inFlight = false → s.xfer.role = .none → s.faults.primary = none → s.pressure.p + 64 < 512 →
    ((∃ p o : Byte, k = .read ∧ i = .read r [] ∧ r.body = [p, o, 1, 0] ∧ a = p.toNat * 64 + o.toNat ∧ o.toNat < 64) ∨
      (k = .readOn ∧ i = .readOn r [] ∧ r.body = [1] ∧ s.link.cursor = some { addr := a, wrap := 0 })) →
    let u := { s with
      hostGrants := s.hostGrantsNext
      link := { s.link with cursor := some { addr := a + 1, wrap := 0 } } }
    let stale := decide ((s.page (a / 64)).state = .stale)
    let access (x : FaultKind) : FaultFrame := .access x k (a / 64) [a % 64] (s.lane.lastClosed + 1)
    ((s.page (a / 64)).suspectAll = true ∨ a ∈ s.suspects →
      exec i s = .next (u.replying k r.tag .ok (.read stale [0] [0xFFFFFFFF]))) ∧
    ((s.page (a / 64)).suspectAll = false → a ∉ s.suspects → (s.cell a).damage = .oneBit →
      ∃ m, (∀ b, (s.setImage m).cell b = if b = a then { value := (s.cell a).value, damage := .intact } else s.cell b) ∧
        exec i s = .next
          ((({ u with image := m } : State).raised .corrected 4).withAlert.replying k r.tag .ok
            (.read stale [] [(s.cell a).value]))) ∧
    ((s.page (a / 64)).suspectAll = false → a ∉ s.suspects → (s.cell a).damage = .twoBits → s.suspects.length < 32 →
      ∃ g, (∀ q, (s.setPages g).page q = if q = a / 64 then { s.page q with state := .suspect } else s.page q) ∧
        let found := ({ u with pages := g, suspects := s.suspects ++ [a] } : State).raised .uncorrectable 64
        (s.isAutoRestore (a / 64) = false →
          exec i s = .next
            ((found.framed (access .uncorrectable)).withAlert.replying k r.tag .ok (.read stale [0] [0xFFFFFFFF]))) ∧
        (s.isAutoRestore (a / 64) = true → s.rest.op ≠ .none → a / 64 ∈ s.rest.list ∨ s.rest.list.length < 64 →
          exec i s = .next
            ((({ found with
                rest := { s.rest with
                  list := if a / 64 ∈ s.rest.list then s.rest.list else s.rest.list ++ [a / 64] } } : State).framed
              (access .uncorrectable)).withAlert.replying k r.tag .ok (.read stale [0] [0xFFFFFFFF]))) ∧
        (s.isAutoRestore (a / 64) = true → s.rest.op ≠ .none → a / 64 ∉ s.rest.list → 64 ≤ s.rest.list.length →
          s.faults.secondary = none → s.pressure.p + 96 < 512 →
          exec i s = .next
            ((((found.raised .restoreFailed 32).framed
              (.transfer .restoreFailed .pageRestore (some (a / 64)) none 0 .listFull)).framedBehind
              (access .uncorrectable)).withAlert.replying k r.tag .ok (.read stale [0] [0xFFFFFFFF])))) ∧
    ((s.page (a / 64)).suspectAll = false → a ∉ s.suspects → (s.cell a).damage = .twoBits → 32 ≤ s.suspects.length →
      s.isAutoRestore (a / 64) = false → s.pressure.p + 96 < 512 →
      ∃ g, (∀ q, (s.setPages g).page q =
          if q = a / 64 then { s.page q with state := .suspect, suspectAll := true } else s.page q) ∧
        exec i s = .next
          ((((({ u with pages := g } : State).raised .uncorrectable 64).raised .suspectOverflow 32).framed
            (access .suspectOverflow)).withAlert.replying k r.tag .ok (.read stale [0] [0xFFFFFFFF])))

/-- From R12, R18 and R19. EXCHANGE is checked as a WRITE of one value, with the same statuses in the same order, and sets the read
cursor to none. An accepted one answers ACCEPTED with the cell's newest queued value, or, where the arbiter may grant the
read and the cell is sound or known to be faulted, with the stored value or 4294967295 and the flags; and it posts its new
value as a one-cell entry. With the page RESTORING and no queued value it waits, with the cycle open at the time (R146). -/
def Obligations.ExchangeAnswersTheOldValueAndPosts : Prop :=
  ∀ (s : State) (r : Request) (p o b3 b2 b1 b0 : Byte),
    s.still → s.serves .exchange r → r.body = [p, o, b3, b2, b1, b0] →
    let a := p.toNat * 64 + o.toNat
    let u : State := { s with link := { s.link with cursor := none } }
    let posted : State := { u with
      queue := {
        entries := s.queue.entries ++
          [{ page := p.toNat, offset := o.toNat, values := [word b3 b2 b1 b0], age := 0, closing := false }]
        run := s.runAt (s.queue.entries.length + 1) } }
    let granted : State := { posted with hostGrants := s.hostGrantsNext }
    let stale := decide ((s.page p.toNat).state = .stale)
    let refusal :=
      if 63 < o.toNat then some Status.badField
      else if s.lane.state = .config then some .wrongState
      else if s.mapped p.toNat = false then some .unmapped
      else if (s.page p.toNat).state = .unset then some .pageUnset
      else if s.isGuarded p.toNat = true ∧
          (s.lane.state = .joining ∨ s.lane.state = .excluded ∨ s.lane.state = .halted) then some .guarded
      else if 8 ≤ s.queue.entries.length ∨ 64 < (s.queue.entries.map (fun e => e.values.length)).sum + 1 then
        some .queueFull
      else none
    (∀ st ups, refusal = some st → exec (.exchange r ups) s = .next (u.replying .exchange r.tag st .empty)) ∧
    (∀ old ups, refusal = none → s.forwarded a = some old →
      exec (.exchange r ups) s = .next (posted.replying .exchange r.tag .accepted (.exchange old false false))) ∧
    (refusal = none → s.forwarded a = none → (s.page p.toNat).state ≠ .restoring → s.hostMay →
      (s.page p.toNat).suspectAll = true ∨ a ∈ s.suspects →
      exec (.exchange r []) s = .next
        (granted.replying .exchange r.tag .accepted (.exchange 0xFFFFFFFF true stale))) ∧
    (refusal = none → s.forwarded a = none → (s.page p.toNat).state ≠ .restoring → s.hostMay →
      (s.page p.toNat).suspectAll = false → a ∉ s.suspects → (s.cell a).damage = .intact →
      exec (.exchange r []) s = .next
        (granted.replying .exchange r.tag .accepted (.exchange (s.cell a).value false stale))) ∧
    (∀ ups, refusal = none → s.forwarded a = none → (s.page p.toNat).state = .restoring →
      exec (.exchange r ups) s = .next
        (u.waiting (.exchange r.tag p.toNat o.toNat (word b3 b2 b1 b0) (s.lane.lastClosed + 1) true ups)))

/-- From R15, R16 and R19. HELD_EXCHANGE_READ: when the restore of the page has ended and the arbiter may grant the read, a held
EXCHANGE whose cell is sound, or stands in a suspect-all page or on the suspect list, answers with the stored value or
4294967295 and the flags, and posts its new value; its reply is begun if its interval is still open. -/
def Obligations.HeldExchangeReadsAndPosts : Prop :=
  ∀ (s : State) (tag : Byte) (page offset : Nat) (v : Word) (cycle : Half) (ups : List Upset),
    s.still → s.phase = .running → s.settledOutputs → s.link.second = none → s.link.phase = .working →
    s.link.live = true → s.link.job = some (.exchange tag page offset v cycle true ups) → offset < 64 →
    (s.page page).state ≠ .restoring → s.hostMay → s.forwarded (page * 64 + offset) = none →
    let a := page * 64 + offset
    let posted : State := { s with
      hostGrants := s.hostGrantsNext
      link := { s.link with job := none }
      queue := {
        entries := s.queue.entries ++ [{ page := page, offset := offset, values := [v], age := 0, closing := false }]
        run := s.runAt (s.queue.entries.length + 1) } }
    let stale := decide ((s.page page).state = .stale)
    ((s.page page).suspectAll = true ∨ a ∈ s.suspects →
      exec (.heldExchangeRead []) s = .next
        (posted.replying .exchange tag .accepted (.exchange 0xFFFFFFFF true stale))) ∧
    ((s.page page).suspectAll = false → a ∉ s.suspects → (s.cell a).damage = .intact →
      exec (.heldExchangeRead []) s = .next
        (posted.replying .exchange tag .accepted (.exchange (s.cell a).value false stale)))

/-- From R12 and R14. FILL: the six checks in order; an accepted FILL waits for its pages, lowest first. -/
def Obligations.FillIsCheckedAndWaits : Prop :=
  ∀ (s : State) (r : Request) (n b3 b2 b1 b0 : Byte),
    s.still → s.serves .fill r → r.body = [n, b3, b2, b1, b0] →
    let u : State := { s with link := { s.link with cursor := none } }
    let find := s.regions.find? (fun x => x.number == n.toNat)
    (15 < n.toNat → exec (.fill r) s = .next (u.replying .fill r.tag .badField .empty)) ∧
    (n.toNat ≤ 15 → s.lane.state ≠ .standby →
      exec (.fill r) s = .next (u.replying .fill r.tag .wrongState .empty)) ∧
    (n.toNat ≤ 15 → s.lane.state = .standby → find = none →
      exec (.fill r) s = .next (u.replying .fill r.tag .unmapped .empty)) ∧
    (∀ g, n.toNat ≤ 15 → s.lane.state = .standby → find = some g →
      exec (.fill r) s = .next
        (if s.lane.close ≠ none then u.replying .fill r.tag .closePending .empty
        else if s.inFlight = true then u.replying .fill r.tag .engineBusy .empty
        else if (List.range' g.first (g.last + 1 - g.first)).any (fun q => decide ((s.page q).state = .restoring)) then
          u.replying .fill r.tag .pageBusy .empty
        else u.waiting (.fill r.tag (word b3 b2 b1 b0) (List.range' g.first (g.last + 1 - g.first))
          (List.range' g.first (g.last + 1 - g.first)))))

/-! ### Steps, reset and the invariants -/

/-- The model's own rule of the queue of waiting commands (log entry 1): a step takes the command at the front and runs it with the
queue's rest. -/
def Obligations.StepRunsTheFrontCommand : Prop :=
  ∀ (s : State) (c : Instr) (rest : List Instr), s.pending = c :: rest → step s = exec c { s with pending := rest }

/-- The model's choice (log entry 2): with no command waiting the block idles. And no word spells a command, for the opcode table
gives none of them any bits. -/
def Obligations.EmptyQueueIdlesAndWordsSpellNothing : Prop :=
  (∀ s : State, s.pending = [] → step s = .next s) ∧
    ∀ nbits w : Nat, decodeTableWord nbits w = none ∧ ∀ s : State, s.withFetchWord nbits w = s

/-- From R4, R20, R29, R37, R45, R54, R58, R61, R67, R72, R124, R141 and R154: what the rules say stands after a power-on reset. -/
def Obligations.ResetLeavesPowerOnValues : Prop :=
  let s := State.reset
  (∀ p, s.page p = { state := .unset, dirty := false, suspectAll := false, uncaptured := false, written := false }) ∧
    s.queue.entries = [] ∧ (s.journal.state = .broken ∧ s.journal.records = [] ∧ s.journal.base = none ∧ s.journal.next = 1) ∧
    s.suspects = [] ∧ (s.patrol.round = 0 ∧ s.patrol.pace = 0 ∧ s.patrol.request = false) ∧ s.pressure.p = 0 ∧
    (s.lane.lastClosed = 0 ∧ s.lane.close = none ∧ s.lane.history = [] ∧ s.lane.abstain = 0 ∧ s.lane.permitMark = false) ∧
    (∀ p, (s.ports.at p).sending = none ∧ (s.ports.at p).first = [] ∧ (s.ports.at p).second = []) ∧
    (∀ p, (s.lane.peer p).known = none ∧ (s.lane.peer p).pending = none ∧ (s.lane.peer p).early = none ∧
      (s.lane.peer p).silent = 0 ∧ (s.lane.peer p).lost = false) ∧
    (s.ckpt.state = .idle ∧ s.ckpt.buffer = [] ∧ s.ckpt.hold = false) ∧ (s.rest.list = [] ∧ s.rest.op = .none ∧ s.rest.last = none) ∧
    (s.xfer.role = .none ∧ s.xfer.partner = none ∧ s.xfer.pass = 1) ∧
    (s.faults.current = 0 ∧ s.faults.accrued = 0 ∧ s.faults.primary = none ∧ s.faults.secondary = none ∧
      s.faults.lost = false ∧ s.faults.any = false) ∧
    (s.link.phase = .idle ∧ s.link.reply = none ∧ s.link.job = none ∧ s.link.cursor = none) ∧
    (s.pins.started = false ∧ s.pins.alert = false ∧ s.pins.permit = false)

/-- The invariants below hold right after reset. -/
def Obligations.ResetMeetsTheInvariants : Prop :=
  State.reset.settledOutputs ∧ State.reset.imageWf = true ∧ State.reset.pagesWf = true ∧ State.reset.bounded

/-- From R90, R145 and R166. Every step leaves PERMIT asserted exactly while the lane is ACTIVE, the record locked and the permit mark
set, ALERT asserted exactly while the accrued set meets the mask or a frame is held, STARTED exactly while the part runs, and
nothing of an event left over, from every state in which that holds. -/
def Obligations.EveryStepKeepsTheOutputLines : Prop :=
  ∀ s t : State, s.settledOutputs → step s = .next t → t.settledOutputs

/-- The model's own form of two tables (log entry 38): every step leaves the image store and the page state table in their
canonical form, keys strictly rising and nothing listed that an unlisted key reads as, from every state in which they have
it. -/
def Obligations.EveryStepKeepsTheTables : Prop :=
  ∀ s t : State, s.imageWf = true → s.pagesWf = true → step s = .next t → t.imageWf = true ∧ t.pagesWf = true

/-- From R20, R28, R43, R45, R58, R61, R104, R111 and R132. Every step keeps the write queue, the journal, the suspect list (without
a cell twice), the cycle history, the restore list, the capture buffer and the inbound list within their capacities, fault
pressure at most 1023 and the abstain count at most 7, from every state in which that holds. -/
def Obligations.EveryStepKeepsTheBounds : Prop :=
  ∀ s t : State, s.bounded → step s = .next t → t.bounded

/-! ### Frames on the wire (chapter 12) -/

/-- From R168. A lane frame sent by the part a port faces passes the port's tests, and the receiving part reads from its body what was
sent: every lane state, cycle, signature, flag and pressure of an ANNOUNCE or STATE, every page count, page, run of values
and reason. A frame at a port is sent as its sender lane, kind, body length, body and check. -/
def Obligations.LaneFramesDecodeAsSent : Prop :=
  ∀ (n : Nat) (p : PortId),
    (∀ f : LaneFrame, (∀ q m cells, f = .page q m cells → cells.length = 64) →
      verdict n f.code (f.received p (expectedLane n p)) = .taken) ∧
    (∀ c st sig ab pr d, pr < 65536 →
      announceArgs (LaneFrame.announce c st sig ab pr d).body =
        some { note := { cycle := c, state := some st, signature := sig, abstain := ab }, p := pr, donating := d }) ∧
    (∀ st c, stateArgs (LaneFrame.state st c).body = some (some st, c)) ∧
    (∀ m, m < 65536 → grantArgs (LaneFrame.joinGrant m).body = some m) ∧
    (∀ q m cells, q < 256 → pageArgs (LaneFrame.page q m cells).body = some (q, cells)) ∧
    (∀ c g, finalArgs (LaneFrame.joinFinal c g).body = some (c, g)) ∧
    (∀ why : Reason, (∀ b, why ≠ .other b) →
      reasonOf ((LaneFrame.joinAbort why).received p n) = why ∧ reasonOf ((LaneFrame.joinRefuse why).received p n) = why) ∧
    (∀ q, q < 256 → ((LaneFrame.pageAgain q).body.headD 0).toNat = q) ∧
    (∀ f : Outgoing, (∀ q m cells, f.frame = .page q m cells → cells.length = 64) →
      ∃ b1 b0 c1 c0, f.bytes = byteOf f.lane :: f.frame.code :: b1 :: b0 :: f.frame.body ++ [c1, c0] ∧
        (half b1 b0).toNat = f.frame.body.length ∧
        half c1 c0 = frameCheck (byteOf f.lane :: f.frame.code :: b1 :: b0 :: f.frame.body))

/-- From R155, R161 and R167. The bodies of the requests that carry fields are read as they are written: a WRITE's page, offset and
values, an EXCHANGE's, a CLOSE's cycle, the kinds of SET ALERT MASK, and a whole commissioning record with its region entries
and its alert mask; a request frame with its own check passes the check; and each of the 26 kinds has a code of its own. -/
def Obligations.RequestsDecodeAsSent : Prop :=
  (∀ p o vs, p < 256 → o < 256 →
    writeArgs (byteOf p :: byteOf o :: bytesOfWords vs) = some { page := p, offset := o, values := vs }) ∧
    (∀ p o v, p < 256 → o < 256 →
      exchangeArgs (byteOf p :: byteOf o :: wordBytes v) = some { page := p, offset := o, values := [v] }) ∧
    (∀ (n : Half) (o : Byte), closeArgs (halfBytes n ++ [o]) = some (n, o.toNat)) ∧
    (∀ n : Half, cycleRecordArgs (halfBytes n) = some (some n)) ∧
    (∀ ks : List FaultKind, ∃ m, kindSetOfCodes (ks.map (fun k => byteOf k.code)) = some m ∧
      ∀ k, kindIn k m = true ↔ k ∈ ks) ∧
    (∀ r : CommRecord, Sys2Proof.WellFormed.commRecord r = true → commissioningArgs (commRecordBytes r) = some r) ∧
    (∀ (k : ReqKind) (tag : Byte) (body : List Byte), requestSound k.code (makeRequest k tag body) = true) ∧
    (∀ k : ReqKind, ReqKind.ofCode k.code = some k) ∧ ∀ j k : ReqKind, j.code = k.code → j = k

/-! ### Power, LANE RESET and start-up (chapters 10 and 11, and each chapter's values after each reset) -/

/-- From R93, R160 and R166. POWER_ON gives a part without power the values every block takes at power-on (`State.cold`), with what power
and reset do not reach: the array, the input lines, the waiting commands and the model's counters. POWER_LOSS loses all but
those, and the array keeps what the operation cut short leaves of it: a page program cut short a check failure, a mark a
damaged field unless its program had just ended. That the two commands do nothing where there is power, or none, that LANE
RESET may be held at power-on, that every value of a part without power reads as at power-on, and what the operand of the cut
says are the model's choices (log entries 3, 12, 14 and 15). -/
def Obligations.PowerOnAndPowerLossClearTheBlocks : Prop :=
  ∀ (s : State) (cut : Cut),
    (s.phase = .off →
      exec .powerOn s = .next { State.cold with
        phase := if s.lrst then .held else .startUp
        ctl := if s.lrst then { op := none, suspended := none, waiting := [] }
          else { op := some .readRecord, suspended := none, waiting := [.readLock, .readHeader .zero, .readHeader .one] }
        array := s.array, pending := s.pending, lrst := s.lrst, powerOns := s.powerOns + 1, free := s.free
        link := { State.cold.link with hcsLow := s.link.hcsLow } }) ∧
    (s.phase ≠ .off → exec .powerOn s = .next s) ∧
    (s.phase = .off → exec (.powerLoss cut) s = .next s) ∧
    (s.phase ≠ .off →
      let a := cutArray s.ctl cut s.array
      (s.ctl.op = none → s.ctl.suspended = none → a = s.array) ∧
        (∀ i p cells, s.ctl.op = some (.programPage i p cells) → s.ctl.suspended = none → cut.whole = false →
          a = s.array.putSlot i ((s.array.slot i).putPlace p .checkFailure)) ∧
        (∀ i, s.ctl.op = some (.programCompletion i) → s.ctl.suspended = none →
          a = s.array.putSlot i { s.array.slot i with
            completion :=
              if cut.whole = true ∧ (s.array.slot i).completion = .erased then Field.whole () else .damaged }) ∧
        exec (.powerLoss cut) s = .next { State.cold with
          array := a, pending := s.pending, lrst := s.lrst, powerOns := s.powerOns, free := s.free
          link := { State.cold.link with hcsLow := s.link.hcsLow } })

/-- From R1, R36, R37, R93 and R160. LANE_RESET_ASSERT on a running part, or one in start-up: every block takes its lane reset
values, the journal keeps its records unless it is PENDING_BASE, no cell holds anything but its old contents or a value that the
grant in progress was writing, with a matching code, and the array keeps what the operations cut short leave of it. Of a patrol
grant whose corrections had all been made, each cell holds its corrected value with a matching code. LANE_RESET_RELEASE then
begins start-up. What the operand of the cut says, which grant is in progress, that a reset of a part without power or in reset
only moves the line, and likewise a release outside reset, are the model's choices (log entries 3, 12 and 31), and so are the
lane state, the alert mask and the copies of the record and the slots that stand until start-up sets them (log entry 15), and
that a reset which cuts the first fill page grant of a journalled region keeps the journal (log entry 62). -/
def Obligations.LaneResetKeepsImageJournalAndArray : Prop :=
  ∀ (s : State) (cut : Cut),
    (s.phase = .startUp ∨ s.phase = .running →
      let u := if s.phase = .running then (s.strike cut.ups).readBegun cut.read else s
      ∃ m,
        (∀ b, (s.setImage m).cell b = u.cell b ∨
          ∃ v, (b, v) ∈ u.grantWrites ∧ (s.setImage m).cell b = { value := v, damage := .intact }) ∧
        (u.grantWrites = [] ∨ s.phase = .startUp → m = u.image) ∧
        (∀ p o, s.phase = .running → u.pick = some .patrol → s.patrol.cursor = some p → p < 256 → s.mapped p = true →
          s.visitable p = true → cut.torn = List.replicate 64 true → o < 64 → p * 64 + o ∉ s.suspects →
          (u.cell (p * 64 + o)).damage = .oneBit →
          (s.setImage m).cell (p * 64 + o) = { value := (s.cell (p * 64 + o)).value, damage := .intact }) ∧
        (s.ctl.op = none → s.ctl.suspended = none → cutArray s.ctl cut s.array = s.array) ∧
        exec (.laneResetAssert cut) s = .next { State.cold with
          phase := .held, lrst := true, image := m, array := cutArray s.ctl cut s.array
          journal :=
            if s.journal.state = .pendingBase then
              { state := .broken, records := [], base := none, next := s.journal.next, start := none }
            else { s.journal with start := none }
          pending := s.pending, powerOns := s.powerOns, free := s.free
          link := { State.cold.link with hcsLow := s.link.hcsLow } }) ∧
    (s.phase = .off ∨ s.phase = .held → exec (.laneResetAssert cut) s = .next { s with lrst := true }) ∧
    (s.phase = .held →
      exec .laneResetRelease s = .next { s with
        lrst := false, phase := .startUp
        ctl := {
          op := some .readRecord, suspended := none
          waiting := [.readLock, .readHeader .zero, .readHeader .one] } }) ∧
    (s.phase ≠ .held → exec .laneResetRelease s = .next { s with lrst := false })

/-- From R37, R45, R96 to R98, R141 and R166. START_UP_COMPLETE after a reset: the record, the lock mark and the two headers as they
read (`lost` names the areas whose check does not hold); a valid record goes into use clamped, with its mask, and the lane
comes up in STANDBY, without one in CONFIG; a slot is COMPLETE, ERASED or INVALID by its header; the timers start; the STATE
frame goes to both ports of a part with a lane number; STARTED rises; and an inactive slot that is not ERASED becomes ERASING,
with nothing noted, and the erase of its data sector 0 is asked for, while with an ERASED one the engine is IDLE.
That an area whose read does not hold reads damaged from then on, one that is erased staying erased, and that the start-up
reads end together in this command are the model's choices (log entries 13 and 14). -/
def Obligations.StartUpReadsRecordAndHeaders : Prop :=
  ∀ (s : State) (lost : List ArrayArea),
    s.phase = .startUp → s.pages = [] → s.queue = State.cold.queue → s.patrol = State.cold.patrol →
    s.pressure = State.cold.pressure → s.lane = State.cold.lane → s.ckpt = State.cold.ckpt → s.rest = State.cold.rest →
    s.xfer = State.cold.xfer → s.faults = State.cold.faults → s.comm = State.cold.comm → s.pins = State.cold.pins →
    s.quiet → s.link.job = none → s.link.second = none →
    let a := lost.foldl loseArea s.array
    let stored : RecordPlace :=
      match a.record with
      | .record r c => if c = Config.recordCheck r then .record r c else .checkFailure
      | x => x
    let inUse : Option CommRecord :=
      match stored with
      | .record r _ => if failingRecord r = none then some (clampRecord r) else none
      | _ => none
    let entry (x : SlotStore) : SlotEntry :=
      match x.begins with
      | .whole f =>
        { state := if x.completion = .whole () ∧ x.abandon ≠ .whole () then .complete else .invalid
          generation := some f.generation, cycle := some f.cycle, start := some f.start }
      | .erased =>
        if x.completion = .erased ∧ x.abandon = .erased then
          { state := .erased, generation := none, cycle := none, start := none }
        else { state := .invalid, generation := none, cycle := none, start := none }
      | .damaged => { state := .invalid, generation := none, cycle := none, start := none }
    let e0 := entry a.slot0
    let e1 := entry a.slot1
    let k : Checkpoint := { s.ckpt with slot0 := e0, slot1 := e1 }
    let c : Commissioning := { stored := stored, locked := decide (a.lock = .whole ()), inUse := inUse }
    let st : LaneState := if inUse.isSome then .standby else .config
    let u := { s with comm := c }
    let slot := k.inactive
    let erases : Bool := decide ((k.slot slot).state ≠ .erased)
    let scanned : Checkpoint := { k with
      highest :=
        if generationNat e0.generation < generationNat e1.generation then e1.generation.getD 0
        else e0.generation.getD 0 }
    exec (.startUpComplete lost) s = .next
      (({ u with
          phase := .running, array := a
          ctl := { op := if erases = true then some (.eraseSector slot 0) else none, suspended := none, waiting := [] }
          ckpt :=
            if erases = true then
              { (scanned.putSlot slot { state := .erasing, generation := none, cycle := none, start := none }) with
                state := .erasing, target := slot, erased := 0 }
            else scanned
          faults := { s.faults with mask := (inUse.map (fun r => r.alertMask)).getD (BitVec.allOnes 21) }
          lane := { s.lane with
            state := st, peer1 := { s.lane.peer1 with lane := u.laneOn .one }
            peer2 := { s.lane.peer2 with lane := u.laneOn .two } }
          patrol := { s.patrol with cursor := u.mappedPages.head?, timer := some u.patrolBase }
          pressure := { s.pressure with timer := some u.decayPeriod }
          pins := { s.pins with started := true } } : State).handBoth (.state st 0))

/-! ### The host link interface (chapter 10) -/

/-- From R154, R156 and R160. HCS falling opens an interval in IDLE; HCS rising returns the assembler to IDLE, and a partial request or
the rest of a reply is lost; the last byte of a reply moves REPLYING to DONE; and nothing else changes. HDO is high impedance
with HCS high and in reset, and otherwise gives FFh but in REPLYING, where it gives filler and then the reply's bytes. That
HCS falling without power is only recorded is the model's choice (log entry 32), and how many filler bytes go first is left
out (log entry 20). -/
def Obligations.ChipSelectOpensAndEndsIntervals : Prop :=
  ∀ s : State,
    (s.link.hcsLow = false → s.link.phase = .idle → (s.phase = .startUp ∨ s.phase = .running) →
      exec .hcsFalling s = .next { s with link := { s.link with hcsLow := true, phase := .receiving } }) ∧
    (s.link.hcsLow = false → (s.phase = .off ∨ s.phase = .held) →
      exec .hcsFalling s = .next { s with link := { s.link with hcsLow := true } }) ∧
    (s.link.hcsLow = true →
      exec .hcsRising s = .next { s with
        link := { s.link with hcsLow := false, phase := .idle, reply := none, live := false, secondLive := false } }) ∧
    (s.link.phase = .replying →
      exec .replySentWhole s = .next { s with link := { s.link with phase := .done, reply := none } }) ∧
    (s.link.hcsLow = false ∨ s.phase = .off ∨ s.phase = .held → s.hdo = .highImpedance) ∧
    (s.link.hcsLow = true → (s.phase = .startUp ∨ s.phase = .running) →
      (s.link.phase ≠ .replying → s.hdo = .filler) ∧
      ∀ r, s.link.phase = .replying → s.link.reply = some r → s.hdo = .reply (0xFF :: r.bytes))

/-- From R155, R157 and R158. A complete request taken in RECEIVING with none waiting that fails a test of R155 is answered with the
first failing test's status, FRAME_CHECK, STARTING or, for one of the 26 kinds, BAD_LENGTH, for any other kind byte
UNKNOWN_KIND, with its kind and tag echoed, an empty body and, for STARTING, no summary; it has no other effect. A body of a
fixed length has to have it, and a list has to divide into whole items. -/
def Obligations.RequestsThatFailTheLinkTestsHaveNoEffect : Prop :=
  (∀ (s : State) (r : Request),
    (s.phase = .startUp ∨ s.phase = .running) → s.link.phase = .receiving → s.link.job = none → s.settledOutputs →
    let refused (kind : Byte) (x : Status) : State := { s with
      link := { s.link with
        phase := .replying, live := true
        reply := some {
          kind := kind, tag := r.tag, status := x
          summary := if x = .starting then none else some (s.summary false), body := .empty } } }
    (∀ kind x,
      (if r.check ≠ frameCheck (kind :: r.tag :: (halfOf r.body.length ++ r.body)) then some Status.frameCheck
        else if s.phase = .startUp then some .starting
        else if ReqKind.ofCode kind = none then some .unknownKind
        else none) = some x →
      exec (.unknownKind kind r) s = .next (refused kind x)) ∧
    (∀ (k : ReqKind) (ups : List Upset) (x : Status), s.link.second = none → (s.phase = .running → s.still) →
      (if r.check ≠ frameCheck (k.code :: r.tag :: (halfOf r.body.length ++ r.body)) then some Status.frameCheck
        else if s.phase = .startUp then some .starting
        else if 256 < r.body.length ∨ k.fits r.body = false then some .badLength
        else none) = some x →
      exec (requestCommand k r ups) s = .next (refused k.code x))) ∧
  (∀ (k : ReqKind) (n : Nat),
    (k, n) ∈ [(ReqKind.read, 4), (.exchange, 6), (.fill, 5), (.close, 3), (.readOn, 1), (.restorePage, 1), (.join, 1),
      (.enter, 0), (.withdraw, 0), (.restart, 0), (.cancelCheckpoint, 0), (.checkpointStatus, 0), (.restoreImage, 0),
      (.faultFrame, 0), (.releaseFault, 0), (.faultSets, 0), (.clearAccrued, 0), (.status, 0), (.readCommissioning, 0),
      (.lockCommissioning, 0), (.apply, 0), (.configure, 0)] →
    ∀ body : List Byte, k.fits body = true ↔ body.length = n) ∧
  (∀ body : List Byte,
    (ReqKind.write.fits body = true ↔ ∃ n, body.length = 2 + 4 * n) ∧
      (ReqKind.writeCommissioning.fits body = true ↔ ∃ n, body.length = 15 + 4 * n) ∧
      (ReqKind.cycleRecord.fits body = true ↔ body.length = 0 ∨ body.length = 2) ∧
      ReqKind.setAlertMask.fits body = true)

/-! ### Fills, drains and the journal (chapters 1 and 2) -/

/-- From R14 and R36. FILL_PAGE: where the arbiter may grant it and no queued entry covers a page of the region, the next page of the
FILL in hand takes the value in all 64 cells and is SOUND, dirty and written, with no suspect cell; a journalled page breaks
the journal; the reply comes after the last page, if its interval is still open. -/
def Obligations.FillPageWritesOnePage : Prop :=
  ∀ (s : State) (tag : Byte) (v : Word) (pages : List Nat) (p : Nat) (rest : List Nat),
    s.still → s.inFlight = false → s.phase = .running → s.settledOutputs → s.link.second = none → s.hostMay →
    s.link.job = some (.fill tag v pages (p :: rest)) →
    (∀ g, s.regionOf p = some g → ∀ e ∈ s.queue.entries, ¬ (g.first ≤ e.page ∧ e.page ≤ g.last)) →
    ∃ m g,
      (∀ b, (s.setImage m).cell b =
        if p * 64 ≤ b ∧ b < p * 64 + 64 then { value := v, damage := .intact } else s.cell b) ∧
      (∀ q, (s.setPages g).page q =
        if q = p then { s.page p with state := .sound, dirty := true, written := true, suspectAll := false } else s.page q) ∧
      let u : State := { s with
        image := m, pages := g, hostGrants := s.hostGrantsNext
        suspects := s.suspects.filter (fun a => decide (a / 64 ≠ p))
        journal :=
          if s.isJournalled p then { s.journal with state := .broken, records := [], base := none } else s.journal
        link := { s.link with job := if rest = [] then none else some (.fill tag v pages rest) } }
      (rest ≠ [] → exec .fillPage s = .next u) ∧
      (rest = [] → s.link.live = true → exec .fillPage s = .next (u.replying .fill tag .ok .empty)) ∧
      (rest = [] → s.link.live = false → exec .fillPage s = .next u)

/-- From R22 to R28. DRAIN: where the arbiter may grant it and the head entry is due (a closing entry at once; otherwise, with
no hold, during a high-mark run or with some entry's age at T), an entry whose page is SOUND, SUSPECT or STALE and not
uncaptured is written into its cells. Those cells leave the suspect list; a SUSPECT page with no suspect cell left becomes
SOUND, a STALE page SOUND; the dirty and written marks are set; a journalled page's entry is appended to a journal that records;
the entry leaves the queue. Nothing else changes where the part neither donates nor receives and a closing entry is left behind
the last one of a close that drains. The drain of the last closing entry begins the signature pass, from the seed of its cycle.
At a donor a page of the sent set goes to the resend set, whose 17th page begins the next pass of a donor whose plan is
exhausted. At a receiver a page of the received set leaves it, with a PAGE-AGAIN to the partner. That the cause of the last stop
is cleared where a computation begins is the model's choice (log entry 52). -/
def Obligations.DrainWritesTheHeadEntry : Prop :=
  ∀ (s : State) (e : Entry) (rest : List Entry),
    s.still → s.inFlight = false → s.ready → s.drains e rest →
    (s.isJournalled e.page = true → s.journal.state ≠ .broken →
      s.journal.next ≠ 0 ∧ s.journal.records.length < 1024 ∧ s.journal.records.length ≠ 895) →
    ∃ m g, s.entryWritten e m g ∧
      let u : State := { s.drained e rest m g with
        journal :=
          if s.isJournalled e.page = true ∧ s.journal.state ≠ .broken then
            { s.journal with
              records := s.journal.records ++
                [{ sequence := s.journal.next, page := e.page, offset := e.offset, values := e.values }]
              next := if s.journal.next = 4294967295 then 0 else s.journal.next + 1 }
          else s.journal }
      let goesOn := ∀ c, s.lane.close = some c → c.stage = .draining → ∃ x ∈ rest, x.closing = true
      let again := if e.page ∈ s.xfer.sent then setAdd e.page s.xfer.resend else s.xfer.resend
      (s.xfer.role = .none → goesOn → exec .drain s = .next u) ∧
      (∀ c, s.xfer.role = .none → s.lastClosing c rest → s.signPlan ≠ [] →
        exec .drain s = .next { u with
          lane := { s.lane with close := some { c with stage := .signing } }
          sign := { a := c.cycle.toNat % 65519, b := s.station, results := [], todo := s.signPlan } }) ∧
      (s.xfer.role = .donor → goesOn → s.closingPassRuns = true ∨ s.xfer.plan ≠ [] ∨ again.length ≤ 16 →
        exec .drain s = .next { u with xfer := { s.xfer with resend := again } }) ∧
      (s.xfer.role = .donor → goesOn → s.closingPassRuns = false → s.xfer.plan = [] → 16 < again.length →
        s.xfer.pass < 8 →
        exec .drain s = .next { u with
          xfer := { s.xfer with pass := s.xfer.pass + 1, plan := again, resend := [], caughtUp := false } }) ∧
      (∀ d q, s.xfer.role = .receiver .receiving → goesOn → s.xfer.partner = some (d, q) →
        (e.page ∉ s.xfer.received → exec .drain s = .next u) ∧
        (e.page ∈ s.xfer.received →
          exec .drain s = .next
            (({ u with xfer := { s.xfer with received := setDrop e.page s.xfer.received } } : State).hand q
              (.pageAgain e.page))))

/-- From R23, R25, R28, R33, R34 and R35. A drain of an entry whose page is unmapped or UNSET only removes the entry. A drain of
a journalled page whose append makes 896 records raises JOURNAL_HIGH; one whose append finds no sequence number left, or 1024
records and no checkpoint in flight, breaks the journal and raises JOURNAL_BROKEN with its TRANSFER frame; with one in flight the append removes the
records below the start sequence and the journal goes PENDING_BASE, or breaks where none is removed. The entry is written in
each case. That the number is tested before the room is the model's choice (log entry 44), and so is that a discard waits for a
trigger and takes a grant (log entry 56). DRAIN_AGE sets the age of the oldest entry below T to T and does nothing where none
is below: the row's form and both halves of that are the model's choices (log entries 3 and 11). -/
def Obligations.DrainDiscardsBreaksAndAges : Prop :=
  ∀ (s : State) (e : Entry) (rest : List Entry),
    (s.still → s.ready → s.hostReadWaits = false → s.fillWaits = false → s.hostMay → s.queue.entries = e :: rest →
      s.holdStands = false → s.queue.run = true → s.mapped e.page = false ∨ (s.page e.page).state = .unset →
      (∀ c, s.lane.close = some c → c.stage ≠ .draining) →
      exec .drain s = .next { s with
        hostGrants := s.hostGrantsNext, queue := { entries := rest, run := s.runAt rest.length } }) ∧
    (s.still → s.ready → s.drains e rest → s.isJournalled e.page = true → s.journal.state ≠ .broken → s.xfer.role = .none →
      (∀ c, s.lane.close = some c → c.stage = .draining → ∃ x ∈ rest, x.closing = true) →
      s.roomFor 16 →
      ∃ m g, s.entryWritten e m g ∧
        let u := s.drained e rest m g
        let put (j : Journal) : State := { u with journal := j }
        let record : JournalRecord := {
          sequence := s.journal.next, page := e.page, offset := e.offset, values := e.values }
        let next := if s.journal.next = 4294967295 then 0 else s.journal.next + 1
        let broken : Journal := { s.journal with state := .broken, records := [], base := none }
        let breaks (j : Journal) (why : Reason) : State :=
          (((put j).raised .journalBroken 16).framed
            (.transfer .journalBroken .checkpoint (some e.page) (s.journal.base.map (fun x => x.1)) 0 why)).withAlert
        (s.journal.next ≠ 0 → s.journal.records.length = 895 →
          exec .drain s = .next
            ((put { s.journal with records := s.journal.records ++ [record], next := next }).raised .journalHigh
              0).withAlert) ∧
        (s.journal.next = 0 → exec .drain s = .next (breaks { broken with next := 1 } .sequenceEnd)) ∧
        (s.journal.next ≠ 0 → 1024 ≤ s.journal.records.length → s.journal.start = none →
          exec .drain s = .next (breaks broken .journalFull)) ∧
        (∀ n, s.journal.next ≠ 0 → 1024 ≤ s.journal.records.length → s.journal.start = some n →
          let kept := s.journal.records.filter (fun x => decide (n ≤ x.sequence))
          let rebased := put { s.journal with
            state := .pendingBase, base := none, records := kept ++ [record], next := next }
          (kept.length < 1024 → kept.length ≠ 895 → exec .drain s = .next rebased) ∧
            (kept.length = 895 → exec .drain s = .next (rebased.raised .journalHigh 0).withAlert) ∧
            (1024 ≤ kept.length → exec .drain s = .next (breaks broken .journalFull)))) ∧
    (∀ older newer x, s.queue.entries = older ++ x :: newer → (∀ y ∈ older, s.holdTime ≤ y.age) → x.age < s.holdTime →
      exec .drainAge s = .next { s with
        queue := { s.queue with entries := older ++ { x with age := s.holdTime } :: newer } }) ∧
    ((∀ y ∈ s.queue.entries, s.holdTime ≤ y.age) → exec .drainAge s = .next s)

/-! ### Patrol and fault pressure (chapter 3) -/

/-- From R38 and R47. The visit timer's expiry stops it and makes the patrol's request wait; the decay timer's expiry takes P down by
(P + 7) div 8 and restarts the timer with the period in use. -/
def Obligations.TimersExpire : Prop :=
  ∀ s : State,
    (∀ n, s.patrol.timer = some n →
      exec .patrolTimerExpiry s = .next { s with patrol := { s.patrol with timer := none, request := true } }) ∧
    (s.settledOutputs → ∀ n, s.pressure.timer = some n →
      ∃ pace,
        exec .decayTimerExpiry s = .next { s with
          pressure := { p := s.pressure.p - (s.pressure.p + 7) / 8, timer := some s.decayPeriod }
          patrol := { s.patrol with pace := pace } } ∧
        (s.pressure.p = 0 → pace = s.patrol.pace))

/-- From R48. The pace level after a change of P, by the table's fifteen cells: from the level before the change and P after it. The decay
and every raise that changes P set it so. -/
def Obligations.PaceFollowsPressure : Prop :=
  (∀ p, 512 ≤ p → p ≤ 1023 → paceAfter p 0 = 2 ∧ paceAfter p 1 = 2 ∧ paceAfter p 2 = 2) ∧
    (∀ p, 448 ≤ p → p ≤ 511 → paceAfter p 0 = 1 ∧ paceAfter p 1 = 1 ∧ paceAfter p 2 = 2) ∧
    (∀ p, 256 ≤ p → p ≤ 447 → paceAfter p 0 = 1 ∧ paceAfter p 1 = 1 ∧ paceAfter p 2 = 1) ∧
    (∀ p, 192 ≤ p → p ≤ 255 → paceAfter p 0 = 0 ∧ paceAfter p 1 = 1 ∧ paceAfter p 2 = 1) ∧
    (∀ p, p ≤ 191 → paceAfter p 0 = 0 ∧ paceAfter p 1 = 0 ∧ paceAfter p 2 = 0) ∧
    (∀ (s : State) (n : Nat), s.settledOutputs → s.pressure.timer = some n → s.pressure.p ≠ 0 →
      ∃ t, exec .decayTimerExpiry s = .next t ∧
        t.patrol.pace = paceAfter (s.pressure.p - (s.pressure.p + 7) / 8) s.patrol.pace) ∧
    (∀ (s : State) (k : FaultKind) (w : Nat), w ≠ 0 → s.pressure.p < 1023 →
      (s.raise k w).patrol.pace = paceAfter (min 1023 (s.pressure.p + w)) s.patrol.pace)

/-- From R5, R38, R39, R41, R42, R44, R46, R48, R111 and R146. PATROL_VISIT, where the arbiter grants it, takes the first mapped
page from the cursor up, and then from the lowest, that is SOUND, SUSPECT or STALE; passing from the highest mapped page to the
lowest, before the visit or after it, counts a round, and the cursor goes to the mapped page after the visited one. With no such
page, or no cursor, only the timer starts again. Cells on the suspect list are not checked; a correctable cell gets its own
value with a fresh code, and CORRECTED is raised with 4 for each. In a suspect-all page nothing else is new. In any other the
uncorrectable cells go to the suspect list in ascending order as far as it has room, the page becomes SUSPECT, a page with
auto-restore goes to the restore list (here while a restore is in hand), UNCORRECTABLE is raised for each, and one PATROL frame
holds them; cells beyond the room set the suspect-all flag, raise SUSPECT_OVERFLOW and give the frame that kind. The timer
starts with the interval of the pace level, which the visit's own faults may have raised (by the model's choice, log entry 45;
here from level 0 and with P below 512). -/
def Obligations.PatrolVisitsThePageAtItsCursor : Prop :=
  ∀ s : State, s.still → s.ready → s.pick = some .patrol →
    let interval (pace : Nat) :=
      if pace = 0 then s.patrolBase else if pace = 1 then max 1 (s.patrolBase / 2) else max 1 (s.patrolBase / 4)
    let visits (p : Nat) := (s.page p).state = .sound ∨ (s.page p).state = .suspect ∨ (s.page p).state = .stale
    let timed : State := { s with
      hostGrants := 0, patrol := { s.patrol with timer := some (interval s.patrol.pace), request := false } }
    (s.patrol.cursor = none → exec (.patrolVisit []) s = .next timed) ∧
    ((∀ q, s.mapped q = true → ¬ visits q) → exec (.patrolVisit []) s = .next timed) ∧
    (∀ (c p : Nat) (passed : Bool), s.patrol.cursor = some c → s.mapped p = true → p < 256 → visits p →
      (passed = false → c ≤ p ∧ ∀ q, c ≤ q → q < p → s.mapped q = true → ¬ visits q) →
      (passed = true → p < c ∧ ∀ q, s.mapped q = true → c ≤ q ∨ q < p → ¬ visits q) →
      let found (d : Damage) := (List.range 64).filter (fun o =>
        decide (p * 64 + o ∉ s.suspects) && decide ((s.cell (p * 64 + o)).damage = d))
      let fixed := found .oneBit
      let bad := if (s.page p).suspectAll = true then [] else found .twoBits
      let room := 32 - s.suspects.length
      let full := decide (room < bad.length)
      let round := if passed = true then s.patrol.round + 1 else s.patrol.round
      let w := 4 * fixed.length + 64 * bad.length + (if full = true then 32 else 0)
      let kinds := (if fixed = [] then 0 else FaultKind.corrected.bit) |||
        (if bad = [] then 0 else FaultKind.uncorrectable.bit) ||| (if full = true then FaultKind.suspectOverflow.bit else 0)
      let pace := if w = 0 then s.patrol.pace else paceAfter (s.pressure.p + w) s.patrol.pace
      let next := s.mappedPages.find? (fun q => decide (p < q))
      (w ≠ 0 → s.patrol.pace = 0 ∧ s.pressure.p + w < 512) →
      (bad ≠ [] → s.inFlight = false ∧ s.xfer.role = .none ∧ s.faults.primary = none ∧
        (s.isAutoRestore p = true → s.rest.op ≠ .none ∧ s.rest.list.length < 64)) →
      ∃ m g,
        (∀ a, (s.setImage m).cell a =
          if a / 64 = p ∧ a % 64 ∈ fixed then { value := (s.cell a).value, damage := .intact } else s.cell a) ∧
        (∀ q, (s.setPages g).page q =
          if q = p ∧ bad ≠ [] then
            { s.page q with state := .suspect, suspectAll := (s.page q).suspectAll || full }
          else s.page q) ∧
        exec (.patrolVisit []) s = .next ({ s with
          hostGrants := 0, image := m, pages := g
          suspects := s.suspects ++ (bad.take room).map (fun o => p * 64 + o)
          rest :=
            if bad ≠ [] ∧ s.isAutoRestore p = true ∧ p ∉ s.rest.list then
              { s.rest with list := s.rest.list ++ [p] }
            else s.rest
          patrol := { s.patrol with
            cursor := if next = none then s.mappedPages.head? else next
            round := if next = none then round + 1 else round
            pace := pace, timer := some (interval pace), request := false }
          pressure := { s.pressure with p := s.pressure.p + w }
          faults := { s.faults with
            current := s.faults.current ||| kinds, accrued := s.faults.accrued ||| kinds
            any := s.faults.any || decide (w ≠ 0)
            primary :=
              if bad = [] then s.faults.primary
              else some (.patrol (if full = true then .suspectOverflow else .uncorrectable) p fixed.length bad round) } }
          : State).withAlert)

/-! ### Closes and signatures (chapter 4) -/

/-- From R53, R54, R55, R98 and R99. CLOSE: the checks in order, of which the first that fails gives the status and changes
nothing. An accepted CLOSE clears the current set, marks every queued entry as closing and is in progress; with an empty queue
and some signed page its pass begins at once, from the seed of its cycle. While the erase hold is set a CLOSE with checkpoint is
refused ENGINE_BUSY, and an accepted one clears the hold and starts the pre-erase of the inactive slot from data sector 0 (here
with the controller free); that it starts on the slot that had faulted where the inactive slot is ERASED is the model's reading
(log entry 54). That the cause of the last stop is cleared where a computation begins is the model's choice (log entry 52). -/
def Obligations.CloseIsCheckedThenTaken : Prop :=
  ∀ (s : State) (r : Request) (c1 c0 o : Byte), s.still → s.serves .close r → r.body = [c1, c0, o] →
    let n := half c1 c0
    let idleErased := s.ckpt.state = .idle ∧ s.ckpt.hold = false ∧ (s.ckpt.slot s.ckpt.inactive).state = .erased
    let voting := s.lane.state = .forming ∨ s.lane.state = .active
    let taken (stage : CloseStage) : Close :=
      { cycle := n, withCheckpoint := decide (o.toNat = 1), stage := stage, vote := .notStarted, signature := none }
    let inactive := (s.ckpt.slot s.ckpt.inactive).state
    let again := if inactive = .erased then s.ckpt.target else s.ckpt.inactive
    let u : State := { s with
      faults := { s.faults with current := 0 }
      queue := { s.queue with entries := s.queue.entries.map (fun e => { e with closing := true }) }
      ckpt :=
        if s.ckpt.hold = true then
          { (s.ckpt.putSlot again { state := .erasing, generation := none, cycle := none, start := none }) with
            state := .erasing, erased := 0, hold := false, target := again }
        else s.ckpt
      ctl := if s.ckpt.hold = true then { s.ctl with op := some (.eraseSector again 0) } else s.ctl }
    (1 < o.toNat → exec (.close r) s = .next (s.replying .close r.tag .badField .empty)) ∧
    (o.toNat ≤ 1 → s.lane.state = .config ∨ s.lane.state = .joining →
      exec (.close r) s = .next (s.replying .close r.tag .wrongState .empty)) ∧
    (o.toNat ≤ 1 → s.lane.state ≠ .config → s.lane.state ≠ .joining → s.lane.close ≠ none →
      exec (.close r) s = .next (s.replying .close r.tag .closePending .empty)) ∧
    (o.toNat ≤ 1 → s.lane.close = none → voting → n ≠ s.lane.lastClosed + 1 →
      exec (.close r) s = .next (s.replying .close r.tag .cycleOrder .empty)) ∧
    (o.toNat = 1 → s.lane.state ≠ .config → s.lane.state ≠ .joining → s.lane.close = none →
      (voting → n = s.lane.lastClosed + 1) → ¬ idleErased →
      exec (.close r) s = .next (s.replying .close r.tag .engineBusy .empty)) ∧
    (o.toNat ≤ 1 → s.lane.state ≠ .config → s.lane.state ≠ .joining → s.lane.close = none →
      (voting → n = s.lane.lastClosed + 1) → (o.toNat = 1 → idleErased) →
      (s.ckpt.hold = true →
        s.ckpt.state = .idle ∧ s.ctl.op = none ∧ inactive ≠ .writing ∧ inactive ≠ .erasing) →
      (s.queue.entries ≠ [] →
        exec (.close r) s = .next (({ u with lane := { s.lane with close := some (taken .draining) } } : State).replying
          .close r.tag .accepted .empty)) ∧
      (s.queue.entries = [] → s.signPlan ≠ [] →
        exec (.close r) s = .next (({ u with
          lane := { s.lane with close := some (taken .signing) }
          sign := { a := n.toNat % 65519, b := s.station, results := [], todo := s.signPlan } } : State).replying
          .close r.tag .accepted .empty)))

/-- R63, and from R56, R65 and R66. A symbol is fed as R63 gives, and both halves of the pair stay within 0 to 65518; a pair is
reported as b × 65536 + a, at most 4293853166; a pass plans exactly the pages of the signed regions, each once where no two
regions have one number, in ascending region number and ascending within each, with the first and the last page of each marked;
and the grants of a region's pages feed together what R65 asks: the region number, then every cell of the region in ascending
address order. -/
def Obligations.SignaturesFeedRegionsInOrder : Prop :=
  (∀ (a b x : Nat),
    feedSymbol (a, b) x = ((a + x + 1) % 65519, (b + (a + x + 1) % 65519) % 65519) ∧
      (feedSymbol (a, b) x).1 ≤ 65518 ∧ (feedSymbol (a, b) x).2 ≤ 65518) ∧
    (∀ (ab : Nat × Nat) (v : Word), feedCell ab v = feedSymbol (feedSymbol ab (v.toNat % 65536)) (v.toNat / 65536)) ∧
    (∀ a b : Nat, a ≤ 65518 → b ≤ 65518 →
      (pairNumber (a, b)).toNat = b * 65536 + a ∧ (pairNumber (a, b)).toNat ≤ 4293853166) ∧
    (∀ s : State, s.signPlan.Pairwise (fun x y => x.region ≤ y.region) ∧
      (∀ st : SignStep, st ∈ s.signPlan ↔ ∃ r ∈ s.regions, r.signed = true ∧ st.region = r.number ∧ r.first ≤ st.page ∧
        st.page ≤ r.last ∧ st.first = decide (st.page = r.first) ∧ st.last = decide (st.page = r.last)) ∧
      ((s.regions.map (fun r => r.number)).Nodup →
        s.signPlan.Pairwise (fun x y => x.region < y.region ∨ x.region = y.region ∧ x.page < y.page))) ∧
    (∀ (r : Region) (seed : Nat × Nat) (cells : Nat → List Word), r.first ≤ r.last →
      (regionSteps r).foldl (fun ab st => pageFed ab st (cells st.page)) seed =
        ((List.range' r.first (r.last + 1 - r.first)).flatMap cells).foldl feedCell (feedSymbol seed r.number)) ∧
    ∀ (seed : Nat × Nat) (results : List (Nat × Nat × Nat)) (i a b : Nat),
      cycleSignature seed (results ++ [(i, a, b)]) =
        pairNumber (feedSymbol (feedSymbol (results.foldl (fun ab r => feedSymbol (feedSymbol ab r.2.1) r.2.2) seed) a) b)

/-- From R30, R56 to R61, R65, R66, R77, R100 and R131. SIGNATURE, where the arbiter grants it, on a page whose 64 cells are sound: a
page before the last only feeds the pair, and at a region's last page stores the result and reseeds; cells that check corrected
are rewritten and fed, and CORRECTED is raised with their count. The last page ends the pass: the cycle record with its
signatures goes to the history and last closed becomes the cycle; outside FORMING and ACTIVE the close is over, and with
checkpoint the snapshot is opened into the inactive slot first; in them ANNOUNCE goes to both ports, the vote window starts,
and the vote waits for an expected peer, or is decided at once where none is awaited. An ACTIVE donor that owes 1 to 16 pages
begins its closing pass, and the hold stands. A page that is UNSET, SUSPECT or RESTORING, or a new uncorrectable cell, which is
handed on as a visit's is, stops the pass with its cause and a record without signature. Outside FORMING and ACTIVE a stop
raises nothing of its own; in them the lane abstains: ABSTAINED is raised, the abstain count rises, and the ANNOUNCE carries
the abstain flag and no signature; at the abstain limit the lane withdraws to EXCLUDED and announces nothing. The pair's value
after a stop, where the cause is kept, the lane state taken for a stop, and the own state of the record of a lane that its own
pass withdraws are the model's choices (log entries 18, 29, 46 and 52). -/
def Obligations.SignaturePassFeedsAndEnds : Prop :=
  ∀ (s : State) (c : Close) (st : SignStep) (rest : List SignStep), s.still → s.ready → s.passWaits = true →
    s.pick = some .signature → s.lane.close = some c → c.stage = .signing → c.vote = .notStarted →
    s.sign.todo = st :: rest →
    let p := st.page
    let readable := (s.page p).state = .sound ∨ (s.page p).state = .stale
    let sound := ∀ o, o < 64 → (s.cell (p * 64 + o)).damage = .intact
    let fed := pageFed (s.sign.a, s.sign.b) st ((List.range 64).map (fun o => (s.cell (p * 64 + o)).value))
    let seed := (c.cycle.toNat % 65519, s.station)
    let sign : SignUnit :=
      if st.last then { a := seed.1, b := seed.2, results := s.sign.results ++ [(st.region, fed)], todo := rest }
      else { s.sign with a := fed.1, b := fed.2, todo := rest }
    let stopped (why : StopCause) : SignUnit := { a := 0, b := 0, results := [], todo := [], stop := some why }
    let voting := s.lane.state = .forming ∨ s.lane.state = .active
    let note (x : Peer) (w : Arrival) : PeerNote := { lane := x.lane, arrival := w, state := none, signature := none }
    let record (sig : Option Word) (rs : Option (List (Nat × Word))) (w : Arrival) (out : VoteOutcome) : CycleRecord :=
      { cycle := c.cycle, own := s.lane.state, signature := sig, regions := rs, peer1 := note s.lane.peer1 w
        peer2 := note s.lane.peer2 w, outcome := out, checkpoint := false }
    let push (x : CycleRecord) := if 16 ≤ s.lane.history.length then s.lane.history.tail ++ [x] else s.lane.history ++ [x]
    let own := cycleSignature seed sign.results
    let regions := sign.results.map (fun x => (x.1, pairNumber x.2))
    let signed := record (some own) (some regions)
    let stands (x : CycleRecord) (v : VoteStage) (sig : Option Word) : LaneUnit := { s.lane with
      history := push x, lastClosed := c.cycle
      window := if v = .running then some s.voteWindow else s.lane.window
      close := if v = .running then some { c with stage := .closed, vote := v, signature := sig } else none }
    (readable → sound → rest ≠ [] → exec (.signature []) s = .next { s with hostGrants := 0, sign := sign }) ∧
    (readable → rest ≠ [] → (∀ o, o < 64 → (s.cell (p * 64 + o)).damage ≠ .twoBits) → ¬ sound →
      let n := ((List.range 64).filter (fun o => decide ((s.cell (p * 64 + o)).damage = .oneBit))).length
      s.pressure.p + 4 * n < 512 →
      ∃ m, (∀ b, (s.setImage m).cell b =
          if b / 64 = p then { value := (s.cell b).value, damage := .intact } else s.cell b) ∧
        exec (.signature []) s = .next
          (({ s with hostGrants := 0, sign := sign, image := m } : State).raised .corrected (4 * n)).withAlert) ∧
    (readable → sound → rest = [] → c.withCheckpoint = false → s.xfer.role = .none → ¬ voting →
      exec (.signature []) s = .next { s with
        hostGrants := 0, sign := sign, lane := stands (signed .notExpected .notVoted) .notStarted none }) ∧
    (readable → sound → rest = [] → c.withCheckpoint = true → s.xfer.role = .none → ¬ voting → s.pagesWf = true →
      s.uncapturedPages = [] → s.ckpt.state = .idle → (s.ckpt.slot s.ckpt.inactive).state = .erased →
      s.ckpt.highest ≠ BitVec.allOnes 32 → s.ctl.op = none →
      (∀ q, s.isCheckpointed q = true → (s.page q).state = .suspect → q ∈ s.rest.list) →
      (∃ q, q < 256 ∧ s.isCheckpointed q = true ∧ (s.page q).state ≠ .unset) →
      let slot := s.ckpt.inactive
      let g := s.ckpt.highest + 1
      let start := s.journal.next
      ∃ m, (∀ q, (s.setPages m).page q =
          if q < 256 ∧ s.isCheckpointed q = true then { s.page q with uncaptured := true, written := false }
          else s.page q) ∧
        exec (.signature []) s = .next { s with
          hostGrants := 0, sign := sign, pages := m
          lane := stands { signed .notExpected .notVoted with checkpoint := true } .notStarted none
          journal :=
            if s.journal.state = .broken then
              { s.journal with state := .pendingBase, records := [], base := none, start := some start }
            else { s.journal with start := some start }
          ckpt := { (s.ckpt.putSlot slot
              { state := .writing, generation := some g, cycle := some c.cycle, start := some start }) with
            state := .capturing, highest := g, buffer := [], cycle := some c.cycle, start := some start, captured := 0
            toCapture := s.checkpointedPages.length, target := slot, begun := false, asked := true }
          ctl := { s.ctl with
            op := some (.programBegin slot { generation := g, cycle := c.cycle, start := start }) } }) ∧
    (readable → sound → rest = [] → c.withCheckpoint = false → voting →
      (s.lane.peer1.missing = true ∨ s.lane.peer2.missing = true) →
      (s.xfer.role = .none →
        exec (.signature []) s = .next
          (({ s with
              hostGrants := 0, sign := sign
              lane := { stands (signed .awaited .pending) .running (some own) with abstain := 0 } } : State).handBoth
            (.announce c.cycle s.lane.state (some own) false s.pressure.p false))) ∧
      (s.xfer.role = .donor → s.lane.state = .active → s.xfer.owed ≠ [] → s.xfer.owed.length ≤ 16 →
        exec (.signature []) s = .next
          (({ s with
              hostGrants := 0, sign := sign
              xfer := { s.xfer with closing := s.xfer.owed, plan := [], resend := [], caughtUp := false }
              lane := { s.lane with
                abstain := 0, history := push (signed .awaited .pending), window := some s.voteWindow
                close := some { c with stage := .closingPass, vote := .running, signature := some own } } } :
              State).handBoth
            (.announce c.cycle s.lane.state (some own) false s.pressure.p true)))) ∧
    (readable → sound → rest = [] → c.withCheckpoint = false → voting → s.xfer.role = .none →
      s.lane.peer1.missing = false → s.lane.peer2.missing = false → s.pressure.p + 128 < 512 →
      let out := voteOutcome (decide (s.lane.state = .active)) (some own) (s.lane.peer1.voteFor c.cycle)
        (s.lane.peer2.voteFor c.cycle)
      ∃ t, exec (.signature []) s = .next t ∧
        t.lane.state = (if s.lane.state = .active then afterActive out else afterForming out) ∧ t.lane.close = none ∧
        t.lane.window = none ∧ t.lane.lastClosed = c.cycle ∧ t.lane.abstain = 0 ∧
        (t.lane.history.getLast?).map (fun x => (x.cycle, x.signature, x.regions, x.outcome)) =
          some (c.cycle, some own, some regions, out) ∧
        t.sign = sign ∧ t.image = s.image ∧ t.pages = s.pages ∧ t.queue = s.queue ∧ t.journal = s.journal ∧
        t.ckpt = s.ckpt) ∧
    (s.xfer.role = .none → ¬ voting →
      (¬ readable →
        exec (.signature []) s = .next { s with
          hostGrants := 0, sign := stopped .unsignablePage
          lane := stands (record none none .notExpected .notVoted) .notStarted none }) ∧
      (∀ o, readable → o < 64 → (s.cell (p * 64 + o)).damage = .twoBits →
        (∀ x, x < 64 → x ≠ o → (s.cell (p * 64 + x)).damage = .intact) → (s.page p).suspectAll = false →
        p * 64 + o ∉ s.suspects → s.suspects.length < 32 → s.isAutoRestore p = false → s.inFlight = false →
        s.faults.primary = none → s.pressure.p + 64 < 512 →
        ∃ g, (∀ q, (s.setPages g).page q = if q = p then { s.page q with state := .suspect } else s.page q) ∧
          exec (.signature []) s = .next
            ((({ s with
                hostGrants := 0, sign := stopped .newUncorrectable, pages := g
                suspects := s.suspects ++ [p * 64 + o]
                lane := stands (record none none .notExpected .notVoted) .notStarted none } : State).raised
              .uncorrectable 64).framed (.patrol .uncorrectable p 0 [o] s.patrol.round)).withAlert)) ∧
    (¬ readable → s.xfer.role = .none → voting → s.pressure.p + 16 < 512 →
      let count := min 7 (s.lane.abstain + 1)
      (count < s.abstainLimit → (s.lane.peer1.missing = true ∨ s.lane.peer2.missing = true) →
        exec (.signature []) s = .next
          ((({ s with
              hostGrants := 0, sign := stopped .unsignablePage
              lane := { stands (record none none .awaited .pending) .running none with abstain := count } } :
              State).raised .abstained 16).handBoth
            (.announce c.cycle s.lane.state none true (s.pressure.p + 16) false)).withAlert) ∧
      (s.abstainLimit ≤ count → s.faults.primary = none →
        let last : CycleRecord := { record none none .notExpected .notVoted with own := .excluded }
        exec (.signature []) s = .next
          (((((({ s with
              hostGrants := 0, sign := stopped .unsignablePage
              lane := { ({ s with lane := stands last .notStarted none } : State).rested .excluded |>.lane with
                abstain := count, permitMark := if s.lane.state = .active then false else s.lane.permitMark } } :
              State).raised .abstained 16).raised .selfWithdrawn 0).framed
              (.closing .selfWithdrawn c.cycle none last.peer1 last.peer2 .notVoted)).handBoth
            (.state .excluded c.cycle)).withLines)))

/-! ### Lane agreement (chapter 5) -/

/-- From R86. ENTER: the checks in order, the last two with the lowest failing page in the reply; when all pass, QUERY goes to both
ports, the query window starts and the request waits. QUERY_WINDOW_END: with a frame taken in it that gave ACTIVE the request
is refused PEER_ACTIVE and the lane stays; otherwise the lane goes to FORMING, its STATE goes to both ports and the reply is
OK. -/
def Obligations.EnterQueriesThenForms : Prop :=
  ∀ (s : State) (r : Request) (tag : Byte), s.still →
    (s.serves .enter r →
      let clear := s.lane.state = .standby ∧ s.lane.close = none ∧ s.xfer.role ≠ .receiver .asking ∧ s.pressure.p < 384
      (s.lane.state ≠ .standby → exec (.enter r) s = .next (s.replying .enter r.tag .wrongState .empty)) ∧
      (s.lane.state = .standby → s.lane.close ≠ none →
        exec (.enter r) s = .next (s.replying .enter r.tag .closePending .empty)) ∧
      (s.lane.state = .standby → s.lane.close = none → s.xfer.role = .receiver .asking →
        exec (.enter r) s = .next (s.replying .enter r.tag .engineBusy .empty)) ∧
      (s.lane.state = .standby → s.lane.close = none → s.xfer.role ≠ .receiver .asking → 384 ≤ s.pressure.p →
        exec (.enter r) s = .next (s.replying .enter r.tag .pressure .empty)) ∧
      (∀ p, clear → p < 256 → s.isSigned p = true → (s.page p).state = .unset →
        (∀ q, q < p → s.isSigned q = true → (s.page q).state ≠ .unset) →
        exec (.enter r) s = .next (s.replying .enter r.tag .pageUnset (.failingPage p))) ∧
      (∀ p, clear → p < 256 → s.isSigned p = true → (s.page p).state ≠ .sound →
        (∀ q, q < 256 → s.isSigned q = true → (s.page q).state ≠ .unset) →
        (∀ q, q < p → s.isSigned q = true → (s.page q).state = .sound) →
        exec (.enter r) s = .next (s.replying .enter r.tag .pageBusy (.failingPage p))) ∧
      (clear → (∀ q, q < 256 → s.isSigned q = true → (s.page q).state = .sound) →
        exec (.enter r) s = .next
          ((({ s with lane := { s.lane with query := some false } } : State).waiting (.enter r.tag)).handBoth .query))) ∧
    (s.phase = .running → s.settledOutputs → s.link.second = none → s.link.job = some (.enter tag) →
      s.link.live = true → s.lane.state = .standby →
      let u : State := { s with link := { s.link with job := none }, lane := { s.lane with query := none } }
      (s.lane.query = some true →
        exec .queryWindowEnd s = .next (u.replying .enter tag .peerActive .empty)) ∧
      (s.lane.query = some false → s.pressure.p < 768 →
        exec .queryWindowEnd s = .next
          ((({ u with lane := { u.lane with state := .forming } } : State).replying .enter tag .ok .empty).handBoth
            (.state .forming s.lane.lastClosed))))

/-- From R76, R84, R85, R87 to R90, R127, R137 and R138. WITHDRAW in FORMING or ACTIVE takes the lane to EXCLUDED, and RESTART in
FORMING, EXCLUDED or HALTED to STANDBY, where no unfinished close but one with an undecided vote runs: the slots of both peers
are emptied, an undecided vote is dropped with its record NOT_VOTED, the permit mark is cleared on leaving ACTIVE, STATE goes
to both ports and the lines follow. A donor that WITHDRAW takes out of ACTIVE ends its donation with DONOR_LEFT. In JOINING both
requests abort the join with RECEIVER_LEFT, telling the donor but in CHECKING, and the lane goes to STANDBY; a part that asks to
join aborts the ask likewise, WITHDRAW in STANDBY or EXCLUDED leaving the lane where it is and RESTART in EXCLUDED taking it to STANDBY.
WITHDRAW in CONFIG or HALTED, and with no ask in STANDBY or EXCLUDED, and RESTART in CONFIG, STANDBY or ACTIVE, are refused
WRONG_STATE. -/
def Obligations.WithdrawAndRestartMoveTheLane : Prop :=
  ∀ (s : State) (r : Request), s.still →
    let emptied (x : Peer) : Peer := { x with pending := none, early := none }
    let dropped (h : List CycleRecord) :=
      mapLast (fun x => { x with outcome := .notVoted, peer1 := x.peer1.unawait, peer2 := x.peer2.unawait }) h
    let moved (dest : LaneState) : State := { s with
      lane := { s.lane with
        state := dest, peer1 := emptied s.lane.peer1, peer2 := emptied s.lane.peer2
        permitMark := if s.lane.state = .active then false else s.lane.permitMark } }
    let unvoted (u : State) : State := { u with
      lane := { u.lane with window := none, close := none, history := dropped s.lane.history } }
    let aborted (q : PortId) := (s.hand q (.joinAbort .receiverLeft)).receptionOver none .receiverLeft
    let joins := s.xfer.role = .receiver .asking ∨ s.xfer.role = .receiver .receiving
    (s.serves .withdraw r →
      (s.xfer.role = .none → s.lane.state = .forming ∨ s.lane.state = .active → s.lane.close = none →
        exec (.withdraw r) s = .next
          ((((moved .excluded).replying .withdraw r.tag .ok .empty).handBoth (.state .excluded s.lane.lastClosed)).withLines)) ∧
      (∀ c, s.xfer.role = .none → s.lane.state = .forming ∨ s.lane.state = .active → s.lane.close = some c →
        c.stage = .closed → c.vote = .running →
        exec (.withdraw r) s = .next
          ((((unvoted (moved .excluded)).replying .withdraw r.tag .ok .empty).handBoth
            (.state .excluded s.lane.lastClosed)).withLines)) ∧
      (∀ d q, s.xfer.role = .donor → s.xfer.partner = some (d, q) → s.lane.state = .active → s.lane.close = none →
        s.roomFor 16 →
        exec (.withdraw r) s = .next
          ((((((moved .excluded).hand q (.joinAbort .donorLeft)).donationLost none 0 .donorLeft).replying .withdraw r.tag .ok
            .empty).handBoth (.state .excluded s.lane.lastClosed)).withLines)) ∧
      (∀ d q, s.xfer.role = .receiver .asking → s.xfer.partner = some (d, q) →
        s.lane.state = .standby ∨ s.lane.state = .excluded → s.roomFor 16 →
        exec (.withdraw r) s = .next ((aborted q).replying .withdraw r.tag .ok .empty).withAlert) ∧
      (∀ d q, joins → s.xfer.partner = some (d, q) → s.lane.state = .joining → s.roomFor 16 →
        exec (.withdraw r) s = .next
          (((((aborted q).rested .standby).replying .withdraw r.tag .ok .empty).handBoth
            (.state .standby s.lane.lastClosed)).withAlert)) ∧
      (s.xfer.role = .receiver .checking → s.lane.state = .joining → s.roomFor 16 →
        exec (.withdraw r) s = .next
          (((((s.receptionOver none .receiverLeft).rested .standby).replying .withdraw r.tag .ok .empty).handBoth
            (.state .standby s.lane.lastClosed)).withAlert)) ∧
      (s.xfer.role = .none → s.lane.state = .config ∨ s.lane.state = .halted ∨ s.lane.state = .standby ∨
        s.lane.state = .excluded →
        exec (.withdraw r) s = .next (s.replying .withdraw r.tag .wrongState .empty))) ∧
    (s.serves .restart r →
      (s.xfer.role = .none → s.lane.state = .forming ∨ s.lane.state = .excluded ∨ s.lane.state = .halted →
        s.lane.close = none →
        exec (.restart r) s = .next
          (((moved .standby).replying .restart r.tag .ok .empty).handBoth (.state .standby s.lane.lastClosed))) ∧
      (∀ c, s.xfer.role = .none → s.lane.state = .forming → s.lane.close = some c → c.stage = .closed → c.vote = .running →
        exec (.restart r) s = .next
          (((unvoted (moved .standby)).replying .restart r.tag .ok .empty).handBoth
            (.state .standby s.lane.lastClosed))) ∧
      (∀ d q, s.xfer.role = .receiver .asking → s.xfer.partner = some (d, q) → s.lane.state = .excluded → s.roomFor 16 →
        exec (.restart r) s = .next
          (((((aborted q).rested .standby).replying .restart r.tag .ok .empty).handBoth
            (.state .standby s.lane.lastClosed)).withAlert)) ∧
      (∀ d q, joins → s.xfer.partner = some (d, q) → s.lane.state = .joining → s.roomFor 16 →
        exec (.restart r) s = .next
          (((((aborted q).rested .standby).replying .restart r.tag .ok .empty).handBoth
            (.state .standby s.lane.lastClosed)).withAlert)) ∧
      (s.xfer.role = .receiver .checking → s.lane.state = .joining → s.roomFor 16 →
        exec (.restart r) s = .next
          (((((s.receptionOver none .receiverLeft).rested .standby).replying .restart r.tag .ok .empty).handBoth
            (.state .standby s.lane.lastClosed)).withAlert)) ∧
      (s.lane.state = .config ∨ s.lane.state = .standby ∨ s.lane.state = .active →
        exec (.restart r) s = .next (s.replying .restart r.tag .wrongState .empty)))

/-- From R79, R80 and R81. The outcome of a vote, the lane state after it and the kind it raises, row by row of the two tables, from
the own signature and the peers' votes: none where a lane is no voter. -/
def Obligations.VoteOutcomesFollowTheTables : Prop :=
  (∀ (active : Bool) (g x : Word), voteOutcome active (some g) (some g) (some g) = .agree ∧
    (x ≠ g → voteOutcome active (some g) (some g) (some x) = .majority ∧
      voteOutcome active (some g) (some x) (some g) = .majority ∧
      voteOutcome active (some g) (some x) (some x) = .diverged ∧
      voteOutcome active (some g) (some x) none = .pairDisagree ∧
      voteOutcome active (some g) none (some x) = .pairDisagree) ∧
    (∀ y, x ≠ g → y ≠ g → x ≠ y → voteOutcome active (some g) (some x) (some y) = .noMajority) ∧
    voteOutcome active (some g) (some g) none = .agree ∧ voteOutcome active (some g) none (some g) = .agree ∧
    voteOutcome active (some g) none none = .alone ∧
    voteOutcome true none (some x) (some x) = .abstained ∧
    (x ≠ g → voteOutcome true none (some x) (some g) = .noMajority) ∧
    voteOutcome true none (some x) none = .alone ∧ voteOutcome true none none (some x) = .alone ∧
    voteOutcome true none none none = .alone) ∧
    (∀ one two, voteOutcome false none one two = .abstained) ∧
    (afterActive .agree = .active ∧ afterActive .majority = .active ∧ afterActive .diverged = .excluded ∧
      afterActive .noMajority = .halted ∧ afterActive .pairDisagree = .halted ∧ afterActive .alone = .halted ∧
      afterActive .abstained = .active) ∧
    (afterForming .activePeerSeen = .standby ∧ afterForming .agree = .active ∧ afterForming .majority = .active ∧
      afterForming .diverged = .standby ∧ afterForming .noMajority = .forming ∧ afterForming .pairDisagree = .forming ∧
      afterForming .alone = .forming ∧ afterForming .abstained = .forming) ∧
    (outcomeKind .agree = none ∧ outcomeKind .majority = some .peerDiverged ∧ outcomeKind .diverged = some .diverged ∧
      outcomeKind .noMajority = some .noMajority ∧ outcomeKind .pairDisagree = some .pairDisagree ∧
      outcomeKind .alone = some .alone ∧ outcomeKind .abstained = none ∧ outcomeKind .activePeerSeen = none) ∧
    ∀ (p : Peer) (n : Half), p.voteFor n =
      match p.pending with
      | none => none
      | some a =>
        if a.cycle = n ∧ a.abstain = false ∧ (a.state = some .forming ∨ a.state = some .active) then a.signature else none

/-- From R76, R78 to R81, R83, R89 and R147. VOTE_WINDOW_EXPIRY at a close whose steps are done and a part that neither donates
nor joins, with P low: the vote is decided by the announcements that stand. The lane takes the outcome's state; the newest
record takes the outcome; the window stops and the close is over; the pending slots are consumed; a missing peer's silent count
rises and at 3 it is lost; the permit mark is set for AGREE and MAJORITY of a lane that was ACTIVE and is cleared by any other
outcome then; and the image, the queue and the journal are as they were. The record notes each missing peer MISSING, each with a
pending announcement ON_TIME with the state and signature it gave, and any other NOT_EXPECTED. A peer that differs at a MAJORITY
of an ACTIVE lane is taken as EXCLUDED. PEER_SILENT is raised for each missing peer, weight 8, and the outcome's kind with its
weight, and nothing else; where a kind is raised, or the outcome is ABSTAINED, one CLOSING frame of the record is placed, of the
outcome's kind, ABSTAINED, or else PEER_SILENT. That a pending announcement is ON_TIME from a peer that is no longer expected is
the model's choice (log entry 57). -/
def Obligations.VoteWindowExpiryDecidesTheVote : Prop :=
  ∀ (s : State) (c : Close), s.still → s.ready → s.xfer.role = .none → s.lane.close = some c → c.stage = .closed →
    c.vote = .running → s.lane.window.isSome = true → s.lane.history ≠ [] →
    (s.lane.state = .forming ∨ s.lane.state = .active) → s.pressure.p + 144 < 512 →
    let active := decide (s.lane.state = .active)
    let out := voteOutcome active c.signature (s.lane.peer1.voteFor c.cycle) (s.lane.peer2.voteFor c.cycle)
    let dest := if s.lane.state = .active then afterActive out else afterForming out
    ∃ t, exec .voteWindowExpiry s = .next t ∧ t.lane.state = dest ∧ t.lane.close = none ∧ t.lane.window = none ∧
      t.lane.lastClosed = s.lane.lastClosed ∧ t.lane.abstain = s.lane.abstain ∧
      (t.lane.history.getLast?).map (fun x => x.outcome) = some out ∧ t.lane.history.length = s.lane.history.length ∧
      (s.lane.state = .active → t.lane.permitMark = decide (out = .agree ∨ out = .majority)) ∧
      (∀ p, (t.lane.peer p).pending = (if voting dest then (s.lane.peer p).early else none) ∧ (t.lane.peer p).early = none) ∧
      (∀ p, (s.lane.peer p).missing = true → (s.lane.peer p).silent ≤ 3 →
        (t.lane.peer p).silent = min 3 ((s.lane.peer p).silent + 1) ∧
        ((t.lane.peer p).lost = true ↔ (s.lane.peer p).lost = true ∨ 2 ≤ (s.lane.peer p).silent)) ∧
      (∀ p, (t.lane.peer p).known =
        match (s.lane.peer p).voteFor c.cycle with
        | some x => if active = true ∧ out = .majority ∧ c.signature ≠ some x then some .excluded else (s.lane.peer p).known
        | none => (s.lane.peer p).known) ∧
      (∀ x p, t.lane.history.getLast? = some x →
        match (s.lane.peer p).pending with
        | some a => (x.note p).arrival = .onTime ∧ (x.note p).state = a.state ∧ (x.note p).signature = a.signature
        | none => (x.note p).arrival = if (s.lane.peer p).expected = true then .missing else .notExpected) ∧
      (let silent := (if s.lane.peer1.missing = true then 1 else 0) + (if s.lane.peer2.missing = true then 1 else 0)
      let kinds := (if silent = 0 then 0 else FaultKind.peerSilent.bit) |||
        (match outcomeKind out with | some k => k.bit | none => 0)
      let frames := decide (silent ≠ 0 ∨ outcomeKind out ≠ none ∨ out = .abstained)
      let kind :=
        match outcomeKind out with
        | some k => k
        | none => if out = .abstained then .abstained else .peerSilent
      t.faults.current = s.faults.current ||| kinds ∧ t.faults.accrued = s.faults.accrued ||| kinds ∧
        t.pressure.p = s.pressure.p + 8 * silent + (match outcomeKind out with | some k => k.weight | none => 0) ∧
        (frames = false → t.faults.primary = s.faults.primary ∧ t.faults.secondary = s.faults.secondary) ∧
        (∀ x, frames = true → s.faults.primary = none → t.lane.history.getLast? = some x →
          t.faults.primary = some (.closing kind x.cycle x.signature x.peer1 x.peer2 x.outcome))) ∧
      t.image = s.image ∧ t.pages = s.pages ∧ t.queue = s.queue ∧ t.journal = s.journal ∧ t.suspects = s.suspects ∧
      t.ckpt = s.ckpt ∧ t.array = s.array ∧ t.comm = s.comm ∧ t.link = s.link

/-- From R90. PERMIT_HALF_PERIOD changes the level of the square wave while PERMIT is asserted, and does nothing otherwise. -/
def Obligations.PermitHalfPeriodTurnsTheWave : Prop :=
  ∀ s : State,
    (s.pins.permit = true →
      exec .permitHalfPeriod s = .next { s with pins := { s.pins with permitHigh := !s.pins.permitHigh } }) ∧
    (s.pins.permit = false → exec .permitHalfPeriod s = .next s)

/-! ### Checkpoints (chapter 6) -/

/-- From R32, R92 and R106. CANCEL CHECKPOINT while the engine is CAPTURING: every uncaptured mark is cleared, the buffer and the
snapshot are dropped, the WRITING slot is given up to a pre-erase that begins with the abandon mark, a PENDING_BASE journal
breaks and any other only drops its start sequence, and the programs not yet started are withdrawn; in any other engine state
the request is refused NOT_RUNNING and changes nothing. That the slot then stands ERASING with its generation dropped is the
model's reading (log entry 17). -/
def Obligations.CancelCheckpointAbandonsTheSnapshot : Prop :=
  ∀ (s : State) (r : Request), s.still → s.serves .cancelCheckpoint r →
    (s.ckpt.state ≠ .capturing → exec (.cancelCheckpoint r) s = .next (s.replying .cancelCheckpoint r.tag .notRunning .empty)) ∧
    (s.ckpt.state = .capturing → s.pagesWf = true →
      let slot := s.ckpt.target
      let kept := s.ctl.waiting.filter (fun o => decide (o.rank ≠ 4))
      ∃ g, (∀ q, (s.setPages g).page q = { s.page q with uncaptured := false }) ∧
        exec (.cancelCheckpoint r) s = .next
          (({ s with
              pages := g
              ckpt := { (s.ckpt.putSlot slot { state := .erasing, generation := none, cycle := none, start := none }) with
                state := .erasing, buffer := [], cycle := none, start := none, captured := 0, toCapture := 0, erased := 0
                begun := false, asked := false }
              journal :=
                if s.journal.state = .pendingBase then
                  { s.journal with state := .broken, records := [], base := none, start := none }
                else { s.journal with start := none }
              ctl :=
                if s.ctl.op = none then { s.ctl with op := some (.programAbandon slot), waiting := kept }
                else { s.ctl with waiting := kept ++ [.programAbandon slot] } } : State).replying
            .cancelCheckpoint r.tag .ok .empty))

/-- From R101, R102, R103, R104 and R107. CAPTURE, where the arbiter grants it: the page of a needed forced capture, or else the lowest uncaptured
page that is SOUND or STALE, whose 64 cells are sound, goes to the end of the buffer with its kind, loses its uncaptured mark
and is counted; nothing else changes (a program of the engine is in progress or the begin fields are not yet programmed, and
every other uncaptured page is SOUND, STALE, RESTORING, or SUSPECT and listed for restoring). One new uncorrectable cell, in a
page that no restore will reach, is handed on as a visit's is and ends the checkpoint with SOURCE_FAULT: the page is not
buffered, every mark is cleared, the slot is given up to the abandon mark and a pre-erase, and CHECKPOINT_FAILED is raised with
its frame behind the finding's. That a forced capture is needed only while the drain is due, and how the slot stands after the
failure, are the model's readings (log entries 16 and 17). -/
def Obligations.CaptureTakesOnePage : Prop :=
  ∀ (s : State) (p : Nat) (forced : Bool), s.still → s.ready → s.pagesWf = true → s.pick = some .capture →
    s.ckpt.state = .capturing → s.ckpt.begun = false ∨ s.ckpt.asked = true →
    (s.page p).uncaptured = true → (s.page p).state = .sound ∨ (s.page p).state = .stale →
    (∀ q, q ≠ p → (s.page q).uncaptured = true →
      (s.page q).state ≠ .unset ∧ ((s.page q).state = .suspect → q ∈ s.rest.list)) →
    (forced = true ∧ s.forcedPage = some p ∨ forced = false ∧ s.forcedPage = none ∧
      ∀ q, q < p → (s.page q).uncaptured = true → (s.page q).state ≠ .sound ∧ (s.page q).state ≠ .stale) →
    ((∀ o, o < 64 → (s.cell (p * 64 + o)).damage = .intact) →
      ∃ g, (∀ q, (s.setPages g).page q = if q = p then { s.page q with uncaptured := false } else s.page q) ∧
        exec (.capture []) s = .next { s with
          pages := g, hostGrants := 0
          ckpt := { s.ckpt with
            captured := s.ckpt.captured + 1
            buffer := s.ckpt.buffer ++
              [{ page := p, cells := (List.range 64).map (fun o => (s.cell (p * 64 + o)).value), forced := forced }] } }) ∧
    (∀ o, o < 64 → (s.cell (p * 64 + o)).damage = .twoBits →
      (∀ x, x < 64 → x ≠ o → (s.cell (p * 64 + x)).damage = .intact) → (s.page p).suspectAll = false →
      p * 64 + o ∉ s.suspects → s.suspects.length < 32 → s.isAutoRestore p = false → p ∉ s.rest.list →
      s.xfer.role = .none → s.faults.primary = none → s.faults.secondary = none → s.pressure.p + 96 < 512 →
      let t := s.ckpt.target
      let kept := s.ctl.waiting.filter (fun x => decide (x.rank ≠ 4))
      ∃ g, (∀ q, (s.setPages g).page q =
          { s.page q with uncaptured := false, state := if q = p then .suspect else (s.page q).state }) ∧
        exec (.capture []) s = .next
          (((((({ s with
              pages := g, hostGrants := 0, suspects := s.suspects ++ [p * 64 + o]
              ckpt := { (s.ckpt.putSlot t { state := .erasing, generation := none, cycle := none, start := none }) with
                state := .erasing, buffer := [], cycle := none, start := none, captured := 0, toCapture := 0, erased := 0
                begun := false, asked := false }
              journal :=
                if s.journal.state = .pendingBase then
                  { s.journal with state := .broken, records := [], base := none, start := none }
                else { s.journal with start := none }
              ctl :=
                if s.ctl.op = none then { s.ctl with op := some (.programAbandon t), waiting := kept }
                else { s.ctl with waiting := kept ++ [.programAbandon t] } } : State).raised .uncorrectable 64).framed
            (.patrol .uncorrectable p 0 [o] s.patrol.round)).raised .checkpointFailed 32).framedBehind
            (.transfer .checkpointFailed .checkpoint (some p) (some t) 0 .sourceFault)).withAlert))

/-- From R92, R104, R105 and R107. The begin fields or a page record programmed into an erased area with nothing else waiting at
the controller: the area reads as written; after the begin fields, or after a page's record has left the buffer, the engine asks
for the program of the oldest buffered page, or, with every page captured and the buffer empty, enters FINISHING and asks for
that of the completion mark. Begin fields or a page record that do not read back as written fail the checkpoint: PROGRAM_FAULT
with CHECKPOINT_FAILED and its frame, which names the page of a page record. That an area which reads erased after its faulted
program stands as damaged is the model's choice (log entry 13); that the slot then stands ERASING with its generation dropped is
its reading (log entry 17). -/
def Obligations.EngineProgramsItsSlot : Prop :=
  ∀ (s : State) (slot : SlotId), s.still → s.ready → s.ckpt.state = .capturing → s.ctl.waiting = [] →
    s.ctl.suspended = none →
    (∀ f e rest, s.ctl.op = some (.programBegin slot f) → (s.array.slot slot).begins = .erased → s.ckpt.buffer = e :: rest →
      exec (.beginFieldsProgrammed none) s = .next { s with
        array := s.array.putSlot slot { s.array.slot slot with begins := .whole f }
        ckpt := { s.ckpt with begun := true, asked := true }
        ctl := { s.ctl with op := some (.programPage s.ckpt.target e.page e.cells) } }) ∧
    (∀ p cells e next rest, s.ctl.op = some (.programPage slot p cells) → (s.array.slot slot).place p = .erased →
      s.ckpt.begun = true → s.ckpt.buffer = e :: next :: rest →
      exec (.checkpointPageProgrammed none) s = .next { s with
          array := s.array.putSlot slot ((s.array.slot slot).putPlace p (.record p cells))
          ckpt := { s.ckpt with buffer := next :: rest, asked := true }
          ctl := { s.ctl with op := some (.programPage s.ckpt.target next.page next.cells) } }) ∧
    (∀ p cells e, s.ctl.op = some (.programPage slot p cells) → (s.array.slot slot).place p = .erased →
      s.ckpt.begun = true → s.ckpt.buffer = [e] → s.uncapturedPages = [] →
      exec (.checkpointPageProgrammed none) s = .next { s with
          array := s.array.putSlot slot ((s.array.slot slot).putPlace p (.record p cells))
          ckpt := { s.ckpt with state := .finishing, buffer := [], asked := true }
          ctl := { s.ctl with op := some (.programCompletion s.ckpt.target) } }) ∧
    (∀ p q cells, ((s.array.slot slot).putPlace p (.record p cells)).place q =
      if q = p then .record p cells else (s.array.slot slot).place q) ∧
    (s.uncapturedPages = [] → s.faults.primary = none → s.pressure.p + 32 < 512 →
      let t := s.ckpt.target
      let failed (x : SlotStore) (page : Option Nat) : State :=
        ((({ s with
            array := s.array.putSlot slot x
            ckpt := { (s.ckpt.putSlot t { state := .erasing, generation := none, cycle := none, start := none }) with
              state := .erasing, buffer := [], cycle := none, start := none, captured := 0, toCapture := 0, erased := 0
              begun := false, asked := false }
            journal :=
              if s.journal.state = .pendingBase then
                { s.journal with state := .broken, records := [], base := none, start := none }
              else { s.journal with start := none }
            ctl := { s.ctl with op := some (.programAbandon t) } } : State).raised .checkpointFailed 32).framed
          (.transfer .checkpointFailed .checkpoint page (some t) 0 .programFault)).withAlert
      (∀ f x, s.ctl.op = some (.programBegin slot f) → x ≠ .whole f →
        exec (.beginFieldsProgrammed (some x)) s = .next
          (failed { s.array.slot slot with begins := if x = .erased then .damaged else x } none)) ∧
      (∀ p cells x, s.ctl.op = some (.programPage slot p cells) → x ≠ .record p cells →
        exec (.checkpointPageProgrammed (some x)) s = .next
          (failed ((s.array.slot slot).putPlace p (if x = .erased then .checkFailure else x)) (some p))))

/-- From R31, R98 and R105. COMPLETION_MARK_PROGRAMMED with an erased mark: the WRITING slot becomes COMPLETE and a COMPLETE other slot
INVALID; a RECORDING journal drops its records below the start sequence and a PENDING_BASE one keeps them, both going on with
the new slot as base, and a BROKEN one stays; every checkpointed page's dirty mark takes its written mark; the snapshot is
dropped. An other slot that is then INVALID becomes ERASING in the same event, with nothing noted, and the erase of its data
sector 0 is asked for; with any other, an ERASED one, the engine is IDLE. -/
def Obligations.CompletionMakesTheSlotActive : Prop :=
  ∀ (s : State) (slot : SlotId), s.still → s.ready → s.pagesWf = true → s.ckpt.state = .finishing → s.ckpt.target = slot →
    s.ckpt.hold = false → s.ctl.op = some (.programCompletion slot) → s.ctl.waiting = [] → s.ctl.suspended = none →
    (s.array.slot slot).completion = .erased →
    let old := s.ckpt.slot (otherSlot slot)
    let k := { (s.ckpt.putSlot slot { s.ckpt.slot slot with state := .complete }) with
      cycle := none, start := none, captured := 0, toCapture := 0, begun := false, asked := false }
    ∃ g, (∀ q, (s.setPages g).page q =
        if q < 256 ∧ s.isCheckpointed q = true then { s.page q with dirty := (s.page q).written } else s.page q) ∧
      let u := { s with
        pages := g
        array := s.array.putSlot slot { s.array.slot slot with completion := .whole () }
        journal :=
          match s.journal.state with
          | .recording => { s.journal with
              records := s.journal.records.filter (fun x => decide (s.journal.start.getD 0 ≤ x.sequence))
              base := some (slot, (s.ckpt.slot slot).generation), start := none }
          | .pendingBase => { s.journal with
              state := .recording, base := some (slot, (s.ckpt.slot slot).generation), start := none }
          | .broken => { s.journal with start := none } }
      (old.state = .complete ∨ old.state = .invalid →
        exec (.completionMarkProgrammed none) s = .next { u with
          ckpt := { (k.putSlot (otherSlot slot) { state := .erasing, generation := none, cycle := none, start := none }) with
            state := .erasing, target := otherSlot slot, erased := 0 }
          ctl := { s.ctl with op := some (.eraseSector (otherSlot slot) 0) } }) ∧
      (old.state ≠ .complete → old.state ≠ .invalid →
        exec (.completionMarkProgrammed none) s = .next { u with
          ckpt := { k with state := .idle }, ctl := { s.ctl with op := none } })

/-- From R92, R98, R99 and R106. With nothing else waiting at the controller: after the abandon mark the pre-erase asks for data
sector 0; after each data sector it counts one and asks for the next, up to the header sector; after the header the slot is
ERASED and the engine IDLE; and a sector, of data or the header, that does not read as erased makes the slot INVALID and the
engine IDLE with the hold set, and raises CHECKPOINT_FAILED with its frame. That the frame names the slot whose erase failed,
though it be not the inactive one, is the model's choice (log entry 67). -/
def Obligations.PreEraseErasesSectorBySector : Prop :=
  ∀ (s : State) (slot : SlotId), s.still → s.ready → s.ckpt.state = .erasing → s.ctl.waiting = [] → s.ctl.suspended = none →
    tabWf Place.erased (s.array.slot slot).places = true →
    (∀ left, s.ctl.op = some (.programAbandon slot) →
      ∃ x, exec (.abandonMarkProgrammed left) s = .next { s with
          array := s.array.putSlot slot { s.array.slot slot with abandon := x }
          ctl := { s.ctl with op := some (.eraseSector slot 0) } } ∧
        (left = none → (s.array.slot slot).abandon = .erased → x = .whole ())) ∧
    (∀ n, n < 16 → s.ctl.op = some (.eraseSector slot n) →
      ∃ a, (∀ q, (a.slot slot).place q = if q / 16 = n then .erased else (s.array.slot slot).place q) ∧
        a.slot (otherSlot slot) = s.array.slot (otherSlot slot) ∧ a.record = s.array.record ∧ a.lock = s.array.lock ∧
        (a.slot slot).begins = (s.array.slot slot).begins ∧ (a.slot slot).completion = (s.array.slot slot).completion ∧
        (a.slot slot).abandon = (s.array.slot slot).abandon ∧
        exec (.preEraseSectorErased none) s = .next { s with
          array := a
          ckpt := { s.ckpt with erased := s.ckpt.erased + 1 }
          ctl := { s.ctl with op := some (.eraseSector slot (n + 1)) } }) ∧
    (s.ctl.op = some (.eraseSector slot 16) →
      exec (.preEraseSectorErased none) s = .next { s with
        array := s.array.putSlot slot { s.array.slot slot with begins := .erased, completion := .erased, abandon := .erased }
        ckpt := { (s.ckpt.putSlot slot { state := .erased, generation := none, cycle := none, start := none }) with
          state := .idle, erased := 0 }
        ctl := { s.ctl with op := none } }) ∧
    (s.faults.primary = none → s.pressure.p + 32 < 512 →
      let failed (a : RetArray) : State :=
        ((({ s with
            array := a
            ckpt := { (s.ckpt.putSlot slot { state := .invalid, generation := none, cycle := none, start := none }) with
              state := .idle, erased := 0, hold := true }
            ctl := { s.ctl with op := none } } : State).raised .checkpointFailed 32).framed
          (.transfer .checkpointFailed .checkpoint none (some slot) 0 .eraseFault)).withAlert
      (∀ n places, n < 16 → s.ctl.op = some (.eraseSector slot n) → places.length = 16 → (∃ x ∈ places, x ≠ .erased) →
        ∃ a, (∀ q, (a.slot slot).place q =
            if q / 16 = n then places.getD (q % 16) .erased else (s.array.slot slot).place q) ∧
          a.slot (otherSlot slot) = s.array.slot (otherSlot slot) ∧ a.record = s.array.record ∧ a.lock = s.array.lock ∧
          (a.slot slot).begins = (s.array.slot slot).begins ∧ (a.slot slot).completion = (s.array.slot slot).completion ∧
          (a.slot slot).abandon = (s.array.slot slot).abandon ∧
          exec (.preEraseSectorErased (some (.data places))) s = .next (failed a)) ∧
      (∀ b c d others, s.ctl.op = some (.eraseSector slot 16) →
        b ≠ .erased ∨ c ≠ .erased ∨ d ≠ .erased ∨ others = true →
        exec (.preEraseSectorErased (some (.header b c d others))) s = .next
          (failed (s.array.putSlot slot { s.array.slot slot with begins := b, completion := c, abandon := d }))))

/-- From R93, R94 and R111 to R114. RESTORE PAGE: the checks in order; a page that passes them is listed once, or refused
LIST_FULL, while another operation runs; with none running and nothing in flight the engine takes it at once: it goes to
RESTORING, wholly suspect, with its listed cells off the suspect list, and the read of its place in the active slot is asked
for: it starts at a free controller, suspends an erase, and waits behind any other operation. -/
def Obligations.RestorePageIsCheckedThenListed : Prop :=
  ∀ (s : State) (r : Request) (p : Byte), s.still → s.serves .restorePage r → r.body = [p] →
    let q := p.toNat
    let refusal : Option Status :=
      if s.lane.state = .config then some .wrongState
      else if s.mapped q = false then some .unmapped
      else if s.isCheckpointed q = false ∨ s.ckpt.active = none then some .noCheckpoint
      else if (s.page q).state ≠ .suspect ∧ (s.page q).state ≠ .stale then some .notNeeded
      else none
    (∀ st, refusal = some st → exec (.restorePage r) s = .next (s.replying .restorePage r.tag st .empty)) ∧
    (refusal = none → s.rest.op ≠ .none → s.inFlight = false →
      exec (.restorePage r) s = .next
        (if q ∈ s.rest.list then s.replying .restorePage r.tag .accepted .empty
        else if 64 ≤ s.rest.list.length then s.replying .restorePage r.tag .listFull .empty
        else ({ s with rest := { s.rest with list := s.rest.list ++ [q] } } : State).replying .restorePage r.tag .accepted
          .empty)) ∧
    (∀ slot, refusal = none → s.rest.op = .none → s.ckpt.active = some slot → s.inFlight = false → s.xfer.role = .none →
      let read : ArrayOp := .readPage false slot q
      ∃ g, (∀ x, (s.setPages g).page x =
          if x = q then { s.page x with state := .restoring, suspectAll := true } else s.page x) ∧
        exec (.restorePage r) s = .next
          (({ s with
              pages := g, suspects := s.suspects.filter (fun a => decide (a / 64 ≠ q))
              rest := { s.rest with list := [], op := .page q slot (s.ckpt.slot slot).generation none }
              ctl :=
                match s.ctl.op with
                | none => { s.ctl with op := some read }
                | some .eraseCommissioning => { s.ctl with op := some read, suspended := some .eraseCommissioning }
                | some (.eraseSector i n) => { s.ctl with op := some read, suspended := some (.eraseSector i n) }
                | some _ => { s.ctl with waiting := s.ctl.waiting ++ [read] } } : State).replying .restorePage r.tag
            .accepted .empty))

/-- From R92 to R94, R114 and R117. PAGE_RESTORE_READ_DONE: an erase that the read had suspended resumes, before any program or
erase that waits; with none suspended and none waiting the controller is free. A record of the page is kept for the restore
write; an erased place, a check failure, a lost page check or another page's record fails the restore with NOT_CAPTURED or
ARRAY: the page is SUSPECT, RESTORE_FAILED is raised with its frame, and the engine has no operation. That a record whose page
check has been lost reads as a check failure from then on is the model's choice (log entry 13), and so is that a read of a slot
which is no longer the active one fails the restore at once (log entry 64). -/
def Obligations.PageRestoreReadKeepsOrFails : Prop :=
  ∀ (s : State) (slot : SlotId) (p : Nat) (g : Option Word), s.still → s.ready → s.rest.op = .page p slot g none →
    s.ctl.op = some (.readPage false slot p) →
    (s.ctl.suspended = none → s.ctl.waiting = []) → (∀ o ∈ s.ctl.waiting, 3 ≤ o.rank) →
    let after : Controller := { s.ctl with op := s.ctl.suspended, suspended := none }
    (∀ cells, (s.array.slot slot).place p = .record p cells →
      exec (.pageRestoreReadDone false) s = .next { s with
        rest := { s.rest with op := .page p slot g (some cells) }, ctl := after }) ∧
    (∀ lost why, s.rest.list = [] → s.inFlight = false → s.faults.primary = none → s.pressure.p + 32 < 512 →
      (lost = false ∧ (s.array.slot slot).place p = .erased ∧ why = .notCaptured ∨
        lost = false ∧ (s.array.slot slot).place p = .checkFailure ∧ why = .array ∨
        lost = false ∧ (∃ q cells, q ≠ p ∧ (s.array.slot slot).place p = .record q cells) ∧ why = .array ∨
        lost = true ∧ (∃ q cells, (s.array.slot slot).place p = .record q cells) ∧ why = .array) →
      ∃ m, (∀ q, (s.setPages m).page q = if q = p then { s.page q with state := .suspect } else s.page q) ∧
        exec (.pageRestoreReadDone lost) s = .next
          ((({ s with
              array := if lost = true then s.array.putSlot slot ((s.array.slot slot).putPlace p .checkFailure) else s.array
              pages := m, rest := { s.rest with op := .none }, ctl := after } :
              State).raised .restoreFailed 32).framed
            (.transfer .restoreFailed .pageRestore (some p) (some slot) 0 why)).withAlert)

/-- From R115, R116 and R117. PAGE_RESTORE_WRITE, where the arbiter grants it, with the noted slot still active: a journalled page whose journal covers the slot
takes the record's values and over them, cell by cell, the newest journal record's; one that is not covered and clean, and an
unjournalled clean page, the record's values; these are SOUND. An unjournalled dirty page takes them and is STALE. A journalled, uncovered, dirty page
is not written and fails NO_JOURNAL. -/
def Obligations.PageRestoreWritesByTheTable : Prop :=
  ∀ (s : State) (slot : SlotId) (p : Nat) (g : Option Word) (cells : List Word), s.still → s.ready → s.inFlight = false →
    s.rest.op = .page p slot g (some cells) → s.rest.list = [] → s.pick = some .restoreWrite → s.ckpt.active = some slot →
    (s.ckpt.slot slot).generation = g → s.isCheckpointed p = true → cells.length = 64 →
    (s.page p).state = .restoring →
    (∀ r ∈ s.journal.records, r.page = p → r.offset + r.values.length ≤ 64) →
    let journalled := s.isJournalled p
    let covers := s.journal.covers slot g
    let dirty := (s.page p).dirty
    let newest (o : Nat) : Option Word :=
      (s.journal.records.reverse.find? (fun r =>
        decide (r.page = p) && decide (r.offset ≤ o) && decide (o < r.offset + r.values.length))).bind
        (fun r => r.values[o - r.offset]?)
    let value (o : Nat) : Word :=
      if journalled = true ∧ covers = true then (newest o).getD (cells.getD o 0) else cells.getD o 0
    (¬ (journalled = true ∧ covers = false ∧ dirty = true) →
      ∃ m h,
        (∀ b, (s.setImage m).cell b =
          if b / 64 = p then { value := value (b % 64), damage := .intact } else s.cell b) ∧
        (∀ q, (s.setPages h).page q =
          if q = p then
            { s.page q with
              state := if journalled = false ∧ dirty = true then .stale else .sound, suspectAll := false }
          else s.page q) ∧
        exec .pageRestoreWrite s = .next { s with
          image := m, pages := h, hostGrants := 0, rest := { s.rest with op := .none } }) ∧
    (journalled = true → covers = false → dirty = true → s.faults.primary = none → s.pressure.p + 32 < 512 →
      ∃ h, (∀ q, (s.setPages h).page q = if q = p then { s.page q with state := .suspect } else s.page q) ∧
        exec .pageRestoreWrite s = .next
          ((({ s with pages := h, hostGrants := 0, rest := { s.rest with op := .none } } : State).raised .restoreFailed
            32).framed (.transfer .restoreFailed .pageRestore (some p) (some slot) 0 .noJournal)).withAlert)

/-- From R119 to R122. RESTORE IMAGE: the three checks in order; an accepted one sends every checkpointed page to RESTORING, wholly
suspect, off the suspect list and off the restore list, and asks for the lowest page. Its reads keep the page's record, or
leave the page SUSPECT and count it as failed, the first with its reason; its writes make each page SOUND and clean and count
it, with the journal's records replayed over the record, cell by cell the newest, where the page is journalled and the journal
covers the slot. Either asks for the next page; after the last one the result stands and the engine has no operation, and
where a page failed RESTORE_FAILED is raised with its frame. That a page left mapped and no longer checkpointed by an APPLY is
written and counted like the others is the model's choice (log entry 49). -/
def Obligations.RestoreImageTakesEveryCheckpointedPage : Prop :=
  ∀ (s : State) (r : Request), s.still →
    (s.serves .restoreImage r →
      let home := s.lane.state = .standby ∨ s.lane.state = .excluded ∨ s.lane.state = .halted
      let busy := s.rest.op ≠ .none ∨ s.xfer.role ≠ .none ∨ s.inFlight = true
      (¬ home → exec (.restoreImage r) s = .next (s.replying .restoreImage r.tag .wrongState .empty)) ∧
      (home → s.ckpt.active = none → exec (.restoreImage r) s = .next (s.replying .restoreImage r.tag .noCheckpoint .empty)) ∧
      (home → s.ckpt.active ≠ none → busy →
        exec (.restoreImage r) s = .next (s.replying .restoreImage r.tag .engineBusy .empty)) ∧
      (∀ slot p rest, home → s.ckpt.active = some slot → ¬ busy → s.ctl.op = none → s.checkpointedPages = p :: rest →
        let e := s.ckpt.slot slot
        let covers := s.journal.covers slot e.generation
        ∃ g, (∀ q, (s.setPages g).page q =
            if q ∈ s.checkpointedPages then { s.page q with state := .restoring, suspectAll := true } else s.page q) ∧
          exec (.restoreImage r) s = .next
            (({ s with
                pages := g
                suspects := s.suspects.filter (fun a => decide (a / 64 ∉ s.checkpointedPages))
                rest := { s.rest with
                  list := s.rest.list.filter (fun q => decide (s.isCheckpointed q = false))
                  op := .image {
                    slot := slot, generation := e.generation, cycle := e.cycle, replay := covers, todo := p :: rest
                    cells := none, toDo := rest.length + 1, done := 0, failed := 0, firstFailed := none } }
                ctl := { s.ctl with op := some (.readPage true slot p) } } : State).replying .restoreImage r.tag .accepted
              (.restoreImage slot e.generation e.cycle covers)))) ∧
    (∀ i p rest, s.ready → s.rest.op = .image i → i.todo = p :: rest → (s.page p).state = .restoring → s.ctl.waiting = [] →
      s.ctl.suspended = none →
      (∀ cells, i.cells = none → s.ctl.op = some (.readPage true i.slot p) → (s.array.slot i.slot).place p = .record p cells →
        exec (.imageRestoreReadDone false) s = .next { s with
          rest := { s.rest with op := .image { i with cells := some cells } }, ctl := { s.ctl with op := none } }) ∧
      (∀ why, i.cells = none → s.ctl.op = some (.readPage true i.slot p) → s.inFlight = false → s.rest.list = [] →
        ((s.array.slot i.slot).place p = .erased ∧ why = .notCaptured ∨
          (s.array.slot i.slot).place p = .checkFailure ∧ why = .array ∨
          (∃ q cells, q ≠ p ∧ (s.array.slot i.slot).place p = .record q cells) ∧ why = .array) →
        ∃ g, (∀ q, (s.setPages g).page q = if q = p then { s.page q with state := .suspect } else s.page q) ∧
          let first := i.firstFailed.getD (p, why)
          (∀ q later, rest = q :: later → q ≠ p → (s.page q).state = .restoring →
            exec (.imageRestoreReadDone false) s = .next { s with
              pages := g, ctl := { s.ctl with op := some (.readPage true i.slot q) }
              rest := { s.rest with
                op := .image { i with todo := rest, failed := i.failed + 1, firstFailed := some first } } }) ∧
          (rest = [] → s.roomFor 32 →
            exec (.imageRestoreReadDone false) s = .next
              ((({ s with
                  pages := g, ctl := { s.ctl with op := none }
                  rest := { s.rest with
                    op := .none
                    last := some {
                      slot := i.slot, generation := i.generation, cycle := i.cycle, replay := i.replay, done := i.done
                      failed := i.failed + 1, firstFailed := some first } } } : State).raised .restoreFailed 32).framed
                (.transfer .restoreFailed .imageRestore (some first.1) (some i.slot) 0 first.2)).withAlert)) ∧
      (∀ cells, i.cells = some cells → cells.length = 64 → s.pick = some .restoreWrite → s.inFlight = false →
        s.rest.list = [] → (∀ r ∈ s.journal.records, r.page = p → r.offset + r.values.length ≤ 64) →
        let newest (o : Nat) : Option Word :=
          (s.journal.records.reverse.find? (fun r =>
            decide (r.page = p) && decide (r.offset ≤ o) && decide (o < r.offset + r.values.length))).bind
            (fun r => r.values[o - r.offset]?)
        let value (o : Nat) : Word :=
          if s.isJournalled p = true ∧ s.journal.covers i.slot i.generation = true then (newest o).getD (cells.getD o 0)
          else cells.getD o 0
        ∃ m g,
          (∀ b, (s.setImage m).cell b =
            if b / 64 = p then { value := value (b % 64), damage := .intact } else s.cell b) ∧
          (∀ q, (s.setPages g).page q =
            if q = p then { s.page q with state := .sound, suspectAll := false, dirty := false } else s.page q) ∧
          (∀ q later, rest = q :: later → q ≠ p → (s.page q).state = .restoring → s.ctl.op = none →
            exec .imageRestoreWrite s = .next { s with
              image := m, pages := g, hostGrants := 0, ctl := { s.ctl with op := some (.readPage true i.slot q) }
              rest := { s.rest with op := .image { i with todo := rest, cells := none, done := i.done + 1 } } }) ∧
          (rest = [] →
            let ended : State := { s with
              image := m, pages := g, hostGrants := 0
              rest := { s.rest with
                op := .none
                last := some {
                  slot := i.slot, generation := i.generation, cycle := i.cycle, replay := i.replay, done := i.done + 1
                  failed := i.failed, firstFailed := i.firstFailed } } }
            (i.firstFailed = none → exec .imageRestoreWrite s = .next ended) ∧
              (∀ q why, i.firstFailed = some (q, why) → s.roomFor 32 →
                exec .imageRestoreWrite s = .next
                  ((ended.raised .restoreFailed 32).framed
                    (.transfer .restoreFailed .imageRestore (some q) (some i.slot) 0 why)).withAlert))))

/-! ### Join (chapter 8) -/

/-- From R125, R127, R134, R137 and R140. JOIN: the checks in order; an accepted JOIN makes the part a receiver in ASKING of the named
lane, hands JOIN-ASK to the port that faces it and starts the idle timer. An expiry of that timer and a JOIN-REFUSE end the
join, the lane staying as it is; in RECEIVING an expiry and a JOIN-ABORT end it with the lane back in STANDBY; each raises
JOIN_FAILED with a TRANSFER frame, and only the expiry sends a JOIN-ABORT. That the command does nothing while the idle timer is
stopped is the model's choice (log entry 3). -/
def Obligations.JoinIsCheckedAsksAndFails : Prop :=
  ∀ (s : State) (r : Request) (l : Byte) (n : Nat) (f : RxFrame),
    (s.serves .join r → r.body = [l] →
      let home := s.lane.state = .standby ∨ s.lane.state = .excluded
      let named := 1 ≤ l.toNat ∧ l.toNat ≤ 3 ∧ s.laneNumber ≠ some l.toNat
      let busy := s.xfer.role ≠ .none ∨ (∃ i, s.rest.op = .image i) ∨ s.inFlight = true
      (¬ named → exec (.join r) s = .next (s.replying .join r.tag .badField .empty)) ∧
      (named → ¬ home → exec (.join r) s = .next (s.replying .join r.tag .wrongState .empty)) ∧
      (named → home → s.lane.close ≠ none → exec (.join r) s = .next (s.replying .join r.tag .closePending .empty)) ∧
      (named → home → s.lane.close = none → busy → exec (.join r) s = .next (s.replying .join r.tag .engineBusy .empty)) ∧
      (named → home → s.lane.close = none → ¬ busy → 384 ≤ s.pressure.p →
        exec (.join r) s = .next (s.replying .join r.tag .pressure .empty)) ∧
      (∀ p, named → home → s.lane.close = none → ¬ busy → s.pressure.p < 384 → s.laneNumber = some n →
        expectedLane n p = l.toNat →
        exec (.join r) s = .next
          ((({ s with
              xfer := { s.xfer with role := .receiver .asking, partner := some (l.toNat, p), idle := true }
              lane := s.lane.putPeer p { s.lane.peer p with relation := .donor } } : State).hand p .joinAsk).replying
            .join r.tag .accepted .empty))) ∧
    (∀ d p, s.still → s.ready → s.xfer.partner = some (d, p) → s.xfer.idle = true → s.roomFor 16 →
      (s.xfer.role = .receiver .asking → s.lane.state ≠ .joining →
        exec .joinIdleTimeout s = .next ((s.hand p (.joinAbort .timeout)).receptionOver none .timeout).withAlert) ∧
      (s.xfer.role = .receiver .receiving → s.lane.state = .joining →
        exec .joinIdleTimeout s =
          .next ((s.hand p (.joinAbort .timeout)).receptionOver none .timeout).backToStandby.withAlert)) ∧
    (s.xfer.idle = false → exec .joinIdleTimeout s = .next s) ∧
    (∀ d b, s.still → s.xfer.partner = some (d, f.port) → f.body = [b] → s.roomFor 16 →
      (s.takesFrame n 6 f → s.xfer.role = .receiver .asking → s.lane.state ≠ .joining →
        exec (.joinRefuse f) s = .next ((s.heard f.port).receptionOver none (Reason.ofCode b)).withAlert) ∧
      (s.takesFrame n 10 f → s.xfer.role = .receiver .receiving → s.lane.state = .joining →
        exec (.joinAbort f) s =
          .next ((s.heard f.port).receptionOver none (Reason.ofCode b)).backToStandby.withAlert))

/-- From R126, R128 to R131 and R138. A donor. JOIN_ASK: refused on its port with the reason of the first test that fails, or granted, with
the plan of every signed page. TRANSFER_OUT: a page whose 64 cells are sound goes out as a PAGE frame and joins the sent set; an
UNSET, SUSPECT or RESTORING page goes to the resend set unread; an exhausted plan sets the caught-up mark; the last page of a
closing pass is followed by JOIN-FINAL, and the donation ends. PAGE_AGAIN: the retry count rises, and the page goes to the resend
set (whose 17th page begins the next pass of a caught-up donor) or the closing list; above the limit the donation ends with
LINK_FAULT. JOIN_ABORT ends the donation with RECEIVER_ABORT. Where the next pass would be pass 9 the donation ends with
NO_CONVERGE. A closing page that cannot be sent abandons the closing pass: the hold is released, it and the pages left go to the
resend set, and the next pass begins at once. A donation that ends during a closing pass releases the hold too. -/
def Obligations.DonorGrantsSendsAndEnds : Prop :=
  ∀ (s : State) (f : RxFrame) (n : Nat), s.still →
    let u := s.heard f.port
    (s.takesFrame n 4 f →
      (s.lane.state ≠ .active → exec (.joinAsk f) s = .next (u.hand f.port (.joinRefuse .notActive))) ∧
      (s.lane.state = .active → s.xfer.role ≠ .none →
        exec (.joinAsk f) s = .next (u.hand f.port (.joinRefuse .donorBusy))) ∧
      (s.lane.state = .active → s.xfer.role = .none → 512 ≤ s.pressure.p →
        exec (.joinAsk f) s = .next (u.hand f.port (.joinRefuse .donorUnhealthy))) ∧
      (s.lane.state = .active → s.xfer.role = .none → s.pressure.p < 512 → s.signedPages ≠ [] →
        (∀ c, s.lane.close = some c → c.stage ≠ .closingPass) →
        exec (.joinAsk f) s = .next
          (({ u with
              xfer := { Transfer.fresh with
                role := .donor, partner := some (expectedLane n f.port, f.port), plan := s.signedPages }
              lane := s.lane.putPeer f.port { s.lane.peer f.port with relation := .receiver } } : State).hand f.port
            (.joinGrant s.signedPages.length)))) ∧
    (∀ d q p rest, s.ready → s.pick = some .transferOut → s.xfer.role = .donor → s.xfer.partner = some (d, q) →
      let readable := (s.page p).state = .sound ∨ (s.page p).state = .stale
      let sound := ∀ o, o < 64 → (s.cell (p * 64 + o)).damage = .intact
      let frame : LaneFrame := .page p s.xfer.pass ((List.range 64).map (fun o => (s.cell (p * 64 + o)).value))
      let sent : Transfer := { s.xfer with
        plan := rest, sent := setAdd p s.xfer.sent, resend := setDrop p s.xfer.resend }
      (s.closingPassRuns = false → s.xfer.plan = p :: rest → readable → sound → rest ≠ [] →
        exec (.transferOut []) s = .next (({ s with hostGrants := 0, xfer := sent } : State).hand q frame)) ∧
      (s.closingPassRuns = false → s.xfer.plan = p :: rest → readable → sound → rest = [] →
        (setDrop p s.xfer.resend).length ≤ 16 →
        exec (.transferOut []) s =
          .next (({ s with hostGrants := 0, xfer := { sent with caughtUp := true } } : State).hand q frame)) ∧
      (s.closingPassRuns = false → s.xfer.plan = p :: rest → readable → sound → rest = [] →
        16 < sent.resend.length → s.xfer.pass < 8 →
        exec (.transferOut []) s = .next (({ s with
          hostGrants := 0
          xfer := { sent with pass := s.xfer.pass + 1, plan := sent.resend, resend := [], caughtUp := false } } :
          State).hand q frame)) ∧
      (s.closingPassRuns = false → s.xfer.plan = p :: rest → readable → sound → rest = [] →
        16 < sent.resend.length → 8 ≤ s.xfer.pass → s.roomFor 16 →
        exec (.transferOut []) s = .next
          (((({ s with hostGrants := 0 } : State).hand q frame).hand q (.joinAbort .noConverge)).donationLost none 0
            .noConverge).withAlert) ∧
      (∀ c later, s.lane.close = some c → c.stage = .closingPass → c.vote = .running → s.xfer.closing = p :: later →
        ¬ readable →
        let v := ({ s with hostGrants := 0 } : State).closingPassOver c
        (s.xfer.pass < 8 →
          exec (.transferOut []) s = .next { v with
            xfer := { s.xfer with
              pass := s.xfer.pass + 1, closing := [], plan := setUnion later (setAdd p s.xfer.resend), resend := []
              caughtUp := false } }) ∧
        (8 ≤ s.xfer.pass → s.roomFor 16 →
          exec (.transferOut []) s = .next
            ((v.hand q (.joinAbort .noConverge)).donationLost none 0 .noConverge).withAlert)) ∧
      (s.closingPassRuns = false → s.xfer.plan = p :: rest → ¬ readable → rest ≠ [] →
        exec (.transferOut []) s = .next { s with
          hostGrants := 0, xfer := { s.xfer with plan := rest, resend := setAdd p s.xfer.resend } }) ∧
      (∀ c g, s.lane.close = some c → c.stage = .closingPass → c.vote = .running → c.signature = some g →
        s.xfer.closing = [p] → readable → sound →
        exec (.transferOut []) s = .next
          (((({ s with hostGrants := 0 } : State).hand q frame).hand q (.joinFinal c.cycle g)).freed.closingPassOver c))) ∧
    (∀ d b, s.takesFrame n 8 f → s.xfer.role = .donor → s.xfer.partner = some (d, f.port) → f.body = [b] →
      let p := b.toNat
      let count := s.xfer.retryOf p + 1
      let retry := tabPut 0 s.xfer.retry p count
      let again := setAdd p s.xfer.resend
      (s.isSigned p = false → exec (.pageAgain f) s = .next u) ∧
      (s.isSigned p = true → count ≤ s.retryLimit → s.closingPassRuns = false → s.xfer.plan ≠ [] ∨ again.length ≤ 16 →
        exec (.pageAgain f) s = .next { u with xfer := { s.xfer with retry := retry, resend := again } }) ∧
      (s.isSigned p = true → count ≤ s.retryLimit → s.closingPassRuns = false → s.xfer.plan = [] → 16 < again.length →
        s.xfer.pass < 8 →
        exec (.pageAgain f) s = .next { u with
          xfer := { s.xfer with
            retry := retry, pass := s.xfer.pass + 1, plan := again, resend := [], caughtUp := false } }) ∧
      (s.isSigned p = true → count ≤ s.retryLimit → s.closingPassRuns = false → s.xfer.plan = [] → 16 < again.length →
        8 ≤ s.xfer.pass → s.roomFor 16 →
        exec (.pageAgain f) s = .next
          ((u.hand f.port (.joinAbort .noConverge)).donationLost none 0 .noConverge).withAlert) ∧
      (∀ c, s.isSigned p = true → s.retryLimit < count → s.lane.close = some c → c.stage = .closingPass →
        c.vote = .running → s.roomFor 16 →
        exec (.pageAgain f) s = .next
          (((u.closingPassOver c).hand f.port (.joinAbort .linkFault)).donationLost (some p) count .linkFault).withAlert) ∧
      (s.isSigned p = true → count ≤ s.retryLimit → s.closingPassRuns = true →
        exec (.pageAgain f) s =
          .next { u with xfer := { s.xfer with retry := retry, closing := setAdd p s.xfer.closing } }) ∧
      (s.isSigned p = true → s.retryLimit < count → s.closingPassRuns = false → s.roomFor 16 →
        exec (.pageAgain f) s =
          .next ((u.hand f.port (.joinAbort .linkFault)).donationLost (some p) count .linkFault).withAlert)) ∧
    (∀ d, s.takesFrame n 10 f → s.xfer.role = .donor → s.xfer.partner = some (d, f.port) → s.roomFor 16 →
      (s.closingPassRuns = false → exec (.joinAbort f) s = .next (u.donationLost none 0 .receiverAbort).withAlert) ∧
      (∀ c, s.lane.close = some c → c.stage = .closingPass → c.vote = .running →
        exec (.joinAbort f) s = .next ((u.closingPassOver c).donationLost none 0 .receiverAbort).withAlert))

/-- From R7, R127, R132 and R137. A receiver. JOIN_GRANT in ASKING: with the receiver's own page count, no close and no checkpoint in flight
the phase becomes RECEIVING and the lane JOINING, told on both ports; otherwise the join is aborted with PLAN_MISMATCH or
RECEIVER_BUSY, the former where both apply, by the model's choice (log entry 50). PAGE in RECEIVING: a signed page is added to the inbound list, or asked for again when 4 wait; another page
aborts the join. TRANSFER_IN writes the head frame's 64 cells: the page is SOUND, dirty and written, its listed cells and its
suspect-all flag cleared, and it joins the received set. -/
def Obligations.ReceiverTakesGrantAndPages : Prop :=
  ∀ (s : State) (f : RxFrame) (n d : Nat), s.still →
    let u := s.heard f.port
    (s.takesFrame n 5 f → s.xfer.role = .receiver .asking → s.xfer.partner = some (d, f.port) →
      s.lane.state = .standby ∨ s.lane.state = .excluded →
      (grantArgs f.body = some s.signedPages.length → s.lane.close = none → s.inFlight = false →
        exec (.joinGrant f) s = .next
          ((({ u with xfer := { s.xfer with role := .receiver .receiving, idle := true } } : State).rested .joining).handBoth
            (.state .joining s.lane.lastClosed))) ∧
      (grantArgs f.body ≠ some s.signedPages.length → s.roomFor 16 →
        exec (.joinGrant f) s =
          .next ((u.hand f.port (.joinAbort .planMismatch)).receptionOver none .planMismatch).withAlert) ∧
      (grantArgs f.body = some s.signedPages.length → s.lane.close ≠ none ∨ s.inFlight = true → s.roomFor 16 →
        exec (.joinGrant f) s =
          .next ((u.hand f.port (.joinAbort .receiverBusy)).receptionOver none .receiverBusy).withAlert)) ∧
    (∀ b k rest vs, s.takesFrame n 7 f → s.xfer.role = .receiver .receiving → s.xfer.partner = some (d, f.port) →
      f.body = b :: k :: rest → wordsOfBytes rest = some vs →
      (s.isSigned b.toNat = true → s.xfer.inbound.length < 4 →
        exec (.page f) s = .next { u with
          xfer := { s.xfer with inbound := s.xfer.inbound ++ [{ page := b.toNat, cells := vs }] } }) ∧
      (s.isSigned b.toNat = true → 4 ≤ s.xfer.inbound.length →
        exec (.page f) s = .next (u.hand f.port (.pageAgain b.toNat))) ∧
      (s.isSigned b.toNat = false → s.lane.state = .joining → s.roomFor 16 →
        exec (.page f) s = .next
          ((u.hand f.port (.joinAbort .planMismatch)).receptionOver (some b.toNat) .planMismatch).backToStandby.withAlert)) ∧
    (∀ x rest, s.ready → s.pick = some .transferIn → s.inFlight = false → s.xfer.role = .receiver .receiving →
      s.xfer.inbound = x :: rest → x.cells.length = 64 →
      ∃ m g,
        (∀ b, (s.setImage m).cell b =
          if x.page * 64 ≤ b ∧ b < x.page * 64 + 64 then
            { value := x.cells.getD (b - x.page * 64) 0, damage := .intact }
          else s.cell b) ∧
        (∀ q, (s.setPages g).page q =
          if q = x.page then { s.page q with state := .sound, suspectAll := false, dirty := true, written := true }
          else s.page q) ∧
        exec .transferIn s = .next { s with
          image := m, pages := g, hostGrants := 0
          suspects := s.suspects.filter (fun a => decide (a / 64 ≠ x.page))
          xfer := { s.xfer with received := setAdd x.page s.xfer.received, inbound := rest } })

/-- From R135, R136 and R137. JOIN_FINAL in RECEIVING: the phase becomes CHECKING, with the frame's cycle and signature noted
and the idle timer stopped; with the inbound list empty the received set is tested at once, and the check begins from the seed
of that cycle, or fails with the lowest missing page. JOIN_CHECK_GRANT on a page whose cells are sound feeds it; after the last
page an equal signature completes the join: the lane is ACTIVE with last closed at the frame's cycle, the journal BROKEN, the
abstain count 0, the permit mark clear and the role none. A different signature ends the join with MISMATCH, back in STANDBY.
That the cause of the last stop is cleared where a computation begins is the model's choice (log entry 52). -/
def Obligations.JoinFinalIsCheckedByTheReceiver : Prop :=
  ∀ (s : State) (f : RxFrame) (n : Nat), s.still → s.lane.state = .joining →
    (∀ d c1 c0 g3 g2 g1 g0, s.takesFrame n 9 f → s.xfer.role = .receiver .receiving → s.xfer.partner = some (d, f.port) →
      f.body = [c1, c0, g3, g2, g1, g0] →
      let u := s.heard f.port
      let x : Transfer := { s.xfer with
        role := .receiver .checking, final := some (half c1 c0, word g3 g2 g1 g0), idle := false, checkBegun := false }
      (s.xfer.inbound ≠ [] → exec (.joinFinal f) s = .next { u with xfer := x }) ∧
      (s.xfer.inbound = [] → (∀ p, p < 256 → s.isSigned p = true → p ∈ s.xfer.received) → s.signPlan ≠ [] →
        exec (.joinFinal f) s = .next { u with
          xfer := { x with checkBegun := true }
          sign := { a := (half c1 c0).toNat % 65519, b := s.station, results := [], todo := s.signPlan } }) ∧
      (∀ p, s.xfer.inbound = [] → p < 256 → s.isSigned p = true → p ∉ s.xfer.received →
        (∀ q, q < p → s.isSigned q = true → q ∈ s.xfer.received) → s.roomFor 16 →
        exec (.joinFinal f) s = .next (u.receptionOver (some p) .missingPages).backToStandby.withAlert)) ∧
    (∀ c g st rest, s.ready → s.pick = some .signature → s.joinCheckWaits = true → s.passWaits = false →
      s.xfer.final = some (c, g) → s.sign.todo = st :: rest →
      let p := st.page
      let fed := pageFed (s.sign.a, s.sign.b) st ((List.range 64).map (fun o => (s.cell (p * 64 + o)).value))
      let seed := (c.toNat % 65519, s.station)
      let sign : SignUnit :=
        if st.last then { a := seed.1, b := seed.2, results := s.sign.results ++ [(st.region, fed)], todo := rest }
        else { s.sign with a := fed.1, b := fed.2, todo := rest }
      let t : State := { s with hostGrants := 0, sign := sign }
      (s.page p).state = .sound ∨ (s.page p).state = .stale →
      (∀ o, o < 64 → (s.cell (p * 64 + o)).damage = .intact) →
      (rest ≠ [] → exec (.joinCheckGrant []) s = .next t) ∧
      (rest = [] → (∀ q, q < 256 → s.isSigned q = true → q ∈ s.xfer.received) →
        (cycleSignature seed sign.results = g → s.pressure.p < 768 →
          exec (.joinCheckGrant []) s = .next
            (({ t.freed with
                lane := { t.freed.lane with state := .active, lastClosed := c, abstain := 0, permitMark := false }
                journal := { s.journal with state := .broken, records := [], base := none } } : State).handBoth
              (.state .active c))) ∧
        (cycleSignature seed sign.results ≠ g → s.roomFor 16 →
          exec (.joinCheckGrant []) s = .next (t.receptionOver none .mismatch).backToStandby.withAlert)))

/-! ### Peers and ports (chapter 5) -/

/-- From R73 to R75 and R86. ANNOUNCE at a part that receives no join, where it neither completes a vote nor tells a FORMING lane of an
ACTIVE peer: the peer's entry takes the frame's state, cycle, pressure and donating flag, its silent count is 0 and its lost
flag clear, and a query window notes ACTIVE. Outside FORMING and ACTIVE that is all. In them the announcement goes to the
pending slot for the cycle being voted and to the early slot for the one after it; for the newest record of a decided vote
that lacks this peer it is written there as LATE, raising LATE_ANNOUNCE; for a cycle of no record OUT_OF_STEP is raised with its
LINK frame. That a pressure above 1023 is taken as it is given is the model's choice (log entry 47). -/
def Obligations.AnnouncementsAreSortedByCycle : Prop :=
  ∀ (s : State) (f : RxFrame) (n : Nat) (a : AnnounceArgs), s.still → s.takesFrame n 1 f → announceArgs f.body = some a →
    s.xfer.role ≠ .receiver .receiving →
    (s.votePending = false ∨ ∃ p, p ≠ f.port ∧ (s.lane.peer p).missing = true) →
    ¬ (s.lane.state = .forming ∧ a.note.state = some .active) →
    let votes := s.lane.state = .forming ∨ s.lane.state = .active
    let told : Peer := { s.lane.peer f.port with
      known := a.note.state, heard := some a.note.cycle, pressure := a.p, donating := a.donating, silent := 0, lost := false }
    let heard (x : Peer) : State := { s.heard f.port with
      lane := { s.lane.putPeer f.port x with
        query := if s.lane.query.isSome = true ∧ a.note.state = some .active then some true else s.lane.query } }
    let other := a.note.cycle ≠ s.cycleVoted ∧ a.note.cycle ≠ s.cycleVoted + 1
    (¬ votes → exec (.announce f) s = .next (heard told)) ∧
    (votes → a.note.cycle = s.cycleVoted →
      exec (.announce f) s = .next (heard { told with pending := some a.note })) ∧
    (votes → a.note.cycle = s.cycleVoted + 1 →
      exec (.announce f) s = .next (heard { told with early := some a.note })) ∧
    (∀ hs x, votes → other → s.lane.history = hs ++ [x] → x.cycle = a.note.cycle → x.outcome ≠ .pending →
      x.outcome ≠ .notVoted → (x.note f.port).arrival = .missing ∨ (x.note f.port).arrival = .notExpected →
      s.pressure.p + 2 < 512 →
      let late : PeerNote := { x.note f.port with
        arrival := .late, state := a.note.state, signature := a.note.signature }
      exec (.announce f) s = .next
        ((({ heard told with
            lane := { (heard told).lane with history := hs ++ [x.putNote f.port late] } } : State).raised
          .lateAnnounce 2).withAlert)) ∧
    (votes → other → (∀ x ∈ s.lane.history, x.cycle ≠ a.note.cycle) → s.roomFor 8 →
      exec (.announce f) s = .next
        (((heard told).raised .outOfStep 8).framed
          (.link .outOfStep f.port 1 (some (expectedLane n f.port)) none)).withAlert)

/-- From R71, R73, R79, R82, R83, R86, R134 and R138. QUERY is answered on its port with a STATE giving the own state and last
closed. STATE updates the peer's entry and a query window as an ANNOUNCE does. It moves a FORMING lane to STANDBY when it gives
ACTIVE, and a vote undecided then is decided ACTIVE_PEER_SEEN with the sender NOT_EXPECTED and the other peer as it announced or
did not; at a donor, from its partner, it confirms the receiver when it gives JOINING, and ends a confirmed donation when it
gives another state; at a receiver, from its donor, it aborts the join when it does not give ACTIVE. That the other peer is
noted ON_TIME wherever its announcement is pending, expected or not, is the model's choice (log entry 57), and that the sender
is noted NOT_EXPECTED though its announcement is pending is its reading (log entry 53). -/
def Obligations.QueriesAndStatesAreTaken : Prop :=
  ∀ (s : State) (f : RxFrame) (n : Nat), s.still →
    (s.takesFrame n 2 f →
      exec (.query f) s = .next ((s.heard f.port).hand f.port (.state s.lane.state s.lane.lastClosed))) ∧
    (∀ (st : Option LaneState) (c : Half), s.takesFrame n 3 f → stateArgs f.body = some (st, c) →
      let quietVote := s.votePending = false ∨ ∃ p, p ≠ f.port ∧ (s.lane.peer p).missing = true
      let told : Peer := { s.lane.peer f.port with known := st, heard := some c, silent := 0, lost := false }
      let u : State := { s.heard f.port with
        lane := { s.lane.putPeer f.port told with
          query := if s.lane.query.isSome = true ∧ st = some .active then some true else s.lane.query } }
      (s.xfer.role = .none → quietVote → ¬ (s.lane.state = .forming ∧ st = some .active) →
        exec (.state f) s = .next u) ∧
      (s.xfer.role = .none → s.votePending = false → s.lane.state = .forming → st = some .active →
        exec (.state f) s = .next ((u.rested .standby).handBoth (.state .standby s.lane.lastClosed))) ∧
      (∀ k, s.xfer.role = .none → s.lane.close = some k → k.vote = .running → k.stage = .closed → s.lane.history ≠ [] →
        s.lane.state = .forming → st = some .active →
        ∃ t x, exec (.state f) s = .next t ∧ t.lane.state = .standby ∧ t.lane.close = none ∧ t.lane.window = none ∧
          t.lane.history.getLast? = some x ∧ x.outcome = .activePeerSeen ∧ (x.note f.port).arrival = .notExpected ∧
          (∀ p, p ≠ f.port → (x.note p).arrival =
            (if (s.lane.peer p).pending.isSome = true then .onTime else .notExpected)) ∧
          (∀ p, (t.lane.peer p).silent = (u.lane.peer p).silent ∧ (t.lane.peer p).pending = none) ∧
          t.faults = s.faults ∧ t.pressure = s.pressure) ∧
      (∀ d, s.xfer.role = .donor → s.xfer.partner = some (d, f.port) → quietVote → s.lane.state ≠ .forming →
        st = some .joining → exec (.state f) s = .next { u with xfer := { s.xfer with confirmed := true } }) ∧
      (∀ d, s.xfer.role = .donor → s.xfer.partner = some (d, f.port) → quietVote → s.lane.state ≠ .forming →
        st ≠ some .joining → s.xfer.confirmed = true → s.closingPassRuns = false → s.roomFor 16 →
        exec (.state f) s = .next (u.donationLost none 0 .receiverLeft).withAlert) ∧
      (∀ d, s.xfer.role = .receiver .receiving → s.xfer.partner = some (d, f.port) → quietVote →
        s.lane.state = .joining → st ≠ some .active → s.roomFor 16 →
        exec (.state f) s =
          .next ((u.hand f.port (.joinAbort .donorLeft)).receptionOver none .donorLeft).backToStandby.withAlert))

/-- From R67 to R69, R133, R148 and R168. A frame handed to a port carries the lane number in use and is sent at once when the
port is idle, or waits at the end of its group; a part without a lane number hands nothing over. LANE_FRAME_FAULTY: the first
failing test decides. A failed check, an unknown kind, a wrong length, and the end of a frame by LANE_CHAR_TIMEOUT or
MARKER_INSIDE_FRAME raise LINK_CHECK; an unexpected sender raises WIRING with its LINK frame; a part without a lane number
raises nothing; a damaged PAGE for a signed page, from a receiver's partner, takes the page out of the received set and is
answered PAGE-AGAIN. PORT_FRAME_SENT begins the oldest waiting frame, ANNOUNCE, QUERY and STATE before the join frames, and
leaves an idle port idle. That a damaged PAGE is answered in RECEIVING only, what the flag of a frame being taken holds, and
that PORT_FRAME_SENT does nothing at an idle port are the model's choices (log entries 27, 35 and 3). -/
def Obligations.PortsFilterAndSendInOrder : Prop :=
  ∀ (s : State) (p : PortId),
    (∀ (n : Nat) (k : Byte) (f : RxFrame), s.still → s.ready → s.laneNumber = some n →
      let u := s.heard f.port
      let whole := f.check = frameCheck (laneChecked f.lane k f.body)
      (¬ whole → k ≠ 7 ∨ s.xfer.role ≠ .receiver .receiving → s.pressure.p + 2 < 512 →
        exec (.laneFrameFaulty k f) s = .next (u.raised .linkCheck 2).withAlert) ∧
      (∀ d b rest, ¬ whole → k = 7 → f.body = b :: rest → rest.length = 257 → s.xfer.role = .receiver .receiving →
        s.xfer.partner = some (d, f.port) → s.isSigned b.toNat = true → s.pressure.p + 2 < 512 →
        exec (.laneFrameFaulty k f) s = .next
          ((({ u with xfer := { s.xfer with received := setDrop b.toNat s.xfer.received } } : State).hand f.port
            (.pageAgain b.toNat)).raised .linkCheck 2).withAlert) ∧
      (whole → laneBodyLength k ≠ some f.body.length → s.pressure.p + 2 < 512 →
        exec (.laneFrameFaulty k f) s = .next (u.raised .linkCheck 2).withAlert) ∧
      (whole → laneBodyLength k = some f.body.length → f.lane ≠ byteOf (expectedLane n f.port) → s.roomFor 32 →
        exec (.laneFrameFaulty k f) s = .next
          ((u.raised .wiring 32).framed
            (.link .wiring f.port k (some (expectedLane n f.port)) (some f.lane))).withAlert)) ∧
    (∀ (k : Byte) (f : RxFrame), s.still → s.ready → s.laneNumber = none →
      exec (.laneFrameFaulty k f) s = .next (s.heard f.port)) ∧
    (s.still → s.ready → s.laneNumber.isSome = true → s.pressure.p + 2 < 512 →
      exec (.laneCharTimeout p) s = .next ((s.heard p).raised .linkCheck 2).withAlert ∧
      exec (.markerInsideFrame p) s = .next
        ((({ s with ports := s.ports.put p { s.ports.at p with taking := true } } : State).raised .linkCheck 2).withAlert)) ∧
    (let x := s.ports.at p
    let put (y : Port) : State := { s with ports := s.ports.put p y }
    (∀ f, s.laneNumber = none → s.hand p f = s) ∧
    (∀ (n : Nat) (f : LaneFrame), s.laneNumber = some n →
      let g : Outgoing := { lane := n, frame := f }
      s.hand p f = put (
        if x.sending = none then { x with sending := some g }
        else if f.code.toNat ≤ 3 then { x with first := x.first ++ [g] }
        else { x with second := x.second ++ [g] })) ∧
    (x.sending = none → exec (.portFrameSent p) s = .next s) ∧
    (∀ g h rest, x.sending = some g → x.first = h :: rest →
      exec (.portFrameSent p) s = .next (put { x with sending := some h, first := rest })) ∧
    (∀ g h rest, x.sending = some g → x.first = [] → x.second = h :: rest →
      exec (.portFrameSent p) s = .next (put { x with sending := some h, second := rest })) ∧
    (∀ g, x.sending = some g → x.first = [] → x.second = [] →
      exec (.portFrameSent p) s = .next (put { x with sending := none })))

/-! ### Commissioning (chapter 11) -/

/-- From R92, R93, R94 and R163. READ COMMISSIONING shows the unit's copy. WRITE COMMISSIONING: WRONG_STATE outside CONFIG, LOCKED while locked;
an accepted one asks for an erase, which starts on a free controller and makes the stored record BLANK, or waits. At its end,
with nothing else waiting, COMMISSIONING_ERASE_DONE starts the program of the record, and COMMISSIONING_PROGRAM_DONE makes it
the stored record with status OK; an array fault at either end leaves the stored record DAMAGED, with INVALID_CONFIG and
failing rule ARRAY. That a region count other than the number of entries is refused BAD_LENGTH after those two checks is the
model's reading (log entry 23); that a lock mark which still reads whole after a failed erase counts as damaged, and a record area
once programmed never as erased, is too (log entry 13). -/
def Obligations.CommissioningIsWrittenInTwoSteps : Prop :=
  ∀ (s : State) (r : Request) (tag : Byte) (x : CommRecord),
    let arrayRule : ReplyBody := .failingRule .array none none
    (s.serves .readCommissioning r →
      exec (.readCommissioning r) s = .next (s.replying .readCommissioning r.tag .ok
        (.commissioning s.comm.stored s.comm.locked s.comm.inUse.isSome))) ∧
    (s.still → s.serves .writeCommissioning r →
      (s.lane.state ≠ .config →
        exec (.writeCommissioning r) s = .next (s.replying .writeCommissioning r.tag .wrongState .empty)) ∧
      (s.lane.state = .config → s.comm.locked = true →
        exec (.writeCommissioning r) s = .next (s.replying .writeCommissioning r.tag .locked .empty)) ∧
      (s.lane.state = .config → s.comm.locked = false → commissioningArgs r.body = none →
        exec (.writeCommissioning r) s = .next (s.replying .writeCommissioning r.tag .badLength .empty)) ∧
      (s.lane.state = .config → s.comm.locked = false → commissioningArgs r.body = some x → s.ctl.op = none →
        exec (.writeCommissioning r) s = .next (({ s with
          ctl := { s.ctl with op := some .eraseCommissioning }
          comm := { s.comm with stored := .erased } } : State).waiting (.writeCommissioning r.tag x))) ∧
      (∀ o, s.lane.state = .config → s.comm.locked = false → commissioningArgs r.body = some x → s.ctl.op = some o →
        exec (.writeCommissioning r) s = .next (({ s with
          ctl := { s.ctl with waiting := s.ctl.waiting ++ [.eraseCommissioning] } } : State).waiting
          (.writeCommissioning r.tag x)))) ∧
    (s.still → s.ready → s.link.job = some (.writeCommissioning tag x) → s.link.live = true → s.ctl.suspended = none →
      s.ctl.waiting = [] →
      let done : State := { s with ctl := { s.ctl with op := none }, link := { s.link with job := none } }
      let written : RecordPlace := .record x (Config.recordCheck x)
      (s.ctl.op = some .eraseCommissioning →
        exec (.commissioningEraseDone none) s = .next { s with
          array := { s.array with record := .erased, lock := .erased }
          ctl := { s.ctl with op := some (.programRecord x) } }) ∧
      (∀ left, s.ctl.op = some .eraseCommissioning →
        left.record ≠ .erased ∨ left.lock ≠ .erased ∨ left.others = true →
        exec (.commissioningEraseDone (some left)) s = .next (({ done with
          array := { s.array with
            record := left.record, lock := if left.lock = .whole () then .damaged else left.lock }
          comm := { s.comm with stored := .checkFailure } } : State).replying
          .writeCommissioning tag .invalidConfig arrayRule)) ∧
      (s.ctl.op = some (.programRecord x) → s.array.record = .erased →
        exec (.commissioningProgramDone none) s = .next (({ done with
          array := { s.array with record := written }
          comm := { s.comm with stored := written } } : State).replying .writeCommissioning tag .ok .empty)) ∧
      (∀ left, s.ctl.op = some (.programRecord x) → left ≠ written →
        exec (.commissioningProgramDone (some left)) s = .next (({ done with
          array := { s.array with record := if left = .erased then .checkFailure else left }
          comm := { s.comm with stored := .checkFailure } } : State).replying
          .writeCommissioning tag .invalidConfig arrayRule)))

/-- From R162 and R165. A record's tests in their order, each naming the first entry it offends. LOCK COMMISSIONING: WRONG_STATE outside
CONFIG, STANDBY, FORMING and ACTIVE; OK when locked already; INVALID_CONFIG for a stored record that fails; otherwise the lock
mark's program is asked for. LOCK_MARK_PROGRAMMED locks, and PERMIT follows; a fault leaves the part unlocked with failing
rule ARRAY, and the mark's area damaged, so that it can be programmed no more (how a
mark that reads whole after that fault stands is log entry 13). Which pair OVERLAP names where several share pages is the model's
reading (log entry 22). -/
def Obligations.RecordsAreTestedInOrderAndLocked : Prop :=
  (∀ x : CommRecord,
    let fails (k : FailingRule) (a b : Option Nat) := failingRecord x = some { rule := k, first := a, second := b }
    let lane := 1 ≤ x.lane ∧ x.lane ≤ 3
    let count := 1 ≤ x.regions.length ∧ x.regions.length ≤ 16
    let badNumber (g : Region) := 15 < g.number ∨ 1 < (x.regions.filter (fun h => h.number = g.number)).length
    let badRange (g : Region) := g.last < g.first ∨ 255 < g.last
    let meet (g h : Region) := g.first ≤ h.last ∧ h.first ≤ g.last
    let badMarks (g : Region) :=
      (g.signed = true ∧ g.journalled = false) ∨ (g.journalled = true ∧ g.checkpointed = false) ∨
        (g.signed = true ∧ g.guarded = false)
    let clear := lane ∧ x.station ≤ 4095 ∧ count
    (¬ lane → fails .lane none none) ∧
    (lane → 4095 < x.station → fails .station none none) ∧
    (lane → x.station ≤ 4095 → ¬ count → fails .regionCount none none) ∧
    (∀ l g r, clear → x.regions = l ++ g :: r → (∀ h ∈ l, ¬ badNumber h) → badNumber g →
      fails .regionNumber (some g.number) none) ∧
    (∀ l g r, clear → (∀ h ∈ x.regions, ¬ badNumber h) → x.regions = l ++ g :: r → (∀ h ∈ l, ¬ badRange h) →
      badRange g → fails .pageRange (some g.number) none) ∧
    (∀ l g m h r, clear → (∀ y ∈ x.regions, ¬ badNumber y ∧ ¬ badRange y) → x.regions = l ++ g :: (m ++ h :: r) →
      (∀ y ∈ l, ∀ z ∈ x.regions, z ≠ y → ¬ meet y z) →
      (∀ y ∈ m, ¬ meet g y) → meet g h → fails .overlap (some g.number) (some h.number)) ∧
    (∀ l g r, clear → (∀ y ∈ x.regions, ¬ badNumber y ∧ ¬ badRange y) → x.regions.Pairwise (fun y z => ¬ meet y z) →
      x.regions = l ++ g :: r → (∀ h ∈ l, ¬ badMarks h) → badMarks g → fails .attributes (some g.number) none) ∧
    (clear → (∀ y ∈ x.regions, ¬ badNumber y ∧ ¬ badRange y ∧ ¬ badMarks y) →
      x.regions.Pairwise (fun y z => ¬ meet y z) →
      ((∀ y ∈ x.regions, y.signed = false) → fails .noSigned none none) ∧
      ((∃ y ∈ x.regions, y.signed = true) → failingRecord x = none))) ∧
  ∀ (s : State) (r : Request) (tag : Byte), s.still →
    (s.serves .lockCommissioning r →
      let lockable := s.lane.state = .config ∨ s.lane.state = .standby ∨ s.lane.state = .forming ∨ s.lane.state = .active
      (¬ lockable → exec (.lockCommissioning r) s = .next (s.replying .lockCommissioning r.tag .wrongState .empty)) ∧
      (lockable → s.comm.locked = true →
        exec (.lockCommissioning r) s = .next (s.replying .lockCommissioning r.tag .ok .empty)) ∧
      (lockable → s.comm.locked = false → s.comm.stored = .erased ∨ s.comm.stored = .checkFailure →
        exec (.lockCommissioning r) s =
          .next (s.replying .lockCommissioning r.tag .invalidConfig (.failingRule .noRecord none none))) ∧
      (∀ x k e, lockable → s.comm.locked = false → s.comm.stored = .record x k → failingRecord x = some e →
        exec (.lockCommissioning r) s =
          .next (s.replying .lockCommissioning r.tag .invalidConfig (.failingRule e.rule e.first e.second))) ∧
      (∀ x k, lockable → s.comm.locked = false → s.comm.stored = .record x k → failingRecord x = none → s.ctl.op = none →
        exec (.lockCommissioning r) s =
          .next (({ s with ctl := { s.ctl with op := some .programLock } } : State).waiting (.lock r.tag)))) ∧
    (s.ready → s.link.job = some (.lock tag) → s.link.live = true → s.ctl.op = some .programLock →
      s.ctl.suspended = none → s.ctl.waiting = [] →
      let done : State := { s with ctl := { s.ctl with op := none }, link := { s.link with job := none } }
      (s.array.lock = .erased →
        exec (.lockMarkProgrammed none) s = .next (({ done with
          array := { s.array with lock := .whole () }
          comm := { s.comm with locked := true } } : State).replying .lockCommissioning tag .ok .empty).withLines) ∧
      (∀ left, s.array.lock ≠ .erased ∨ (left ≠ none ∧ left ≠ some (.whole ())) →
        exec (.lockMarkProgrammed left) s = .next (({ done with
          array := { s.array with lock := .damaged } } : State).replying .lockCommissioning tag .invalidConfig
          (.failingRule .array none none))))

/-- From R8, R22, R40, R68, R72, R106, R118, R161, R164 and R165. APPLY: WRONG_STATE outside CONFIG, CLOSE_PENDING while a close
is in progress, INVALID_CONFIG for a stored record that fails; an accepted one, at a part that is in no join, cancels a
checkpoint that is CAPTURING as a request would, puts the clamped record in use, makes unmapped pages UNSET with their marks and
suspect cells gone and off the restore list, ends the restore of such a page (here with no page left on the list), moves the
patrol cursor, breaks the journal, sets both peer entries afresh, takes the record's alert mask and goes to STANDBY, told on
both ports by a STATE with the new lane number. That the new drain marks begin or end the high-mark run in the same event is the
model's choice (log entry 55), so is that a read of the ended restore which still waits at the controller stays there (log entry
59), and the ERASING slot of the cancelled checkpoint its reading (log entry 17). CONFIGURE: WRONG_STATE outside STANDBY, LOCKED
while locked; otherwise the lane goes to CONFIG, told on both ports, and a join that asks is aborted. -/
def Obligations.ApplyAndConfigureChangeTheRecordInUse : Prop :=
  ∀ (s : State) (r : Request), s.still →
    (s.serves .apply r →
      (s.lane.state ≠ .config → exec (.apply r) s = .next (s.replying .apply r.tag .wrongState .empty)) ∧
      (s.lane.state = .config → s.lane.close ≠ none →
        exec (.apply r) s = .next (s.replying .apply r.tag .closePending .empty)) ∧
      (s.lane.state = .config → s.lane.close = none → s.comm.stored = .erased ∨ s.comm.stored = .checkFailure →
        exec (.apply r) s = .next (s.replying .apply r.tag .invalidConfig (.failingRule .noRecord none none))) ∧
      (∀ x k e, s.lane.state = .config → s.lane.close = none → s.comm.stored = .record x k → failingRecord x = some e →
        exec (.apply r) s = .next (s.replying .apply r.tag .invalidConfig (.failingRule e.rule e.first e.second))) ∧
      (∀ x k, s.lane.state = .config → s.lane.close = none → s.comm.stored = .record x k → failingRecord x = none →
        s.xfer.role = .none → (s.ckpt.state = .capturing → s.pagesWf = true) →
        let maps (q : Nat) : Bool := x.regions.any (fun g => decide (g.first ≤ q) && decide (q ≤ g.last))
        let left := s.rest.list.filter maps
        (∀ p sl n c, s.rest.op = .page p sl n c → maps p = true ∨ left = []) →
        let slot := s.ckpt.target
        let kept := s.ctl.waiting.filter (fun o => decide (o.rank ≠ 4))
        let cancels : Bool := decide (s.ckpt.state = .capturing)
        let h := min 8 (max 1 x.highMark)
        let l := min (h - 1) x.lowMark
        let count := s.queue.entries.length
        let inUse : CommRecord := { x with
          voteWindow := max 1 x.voteWindow, abstainLimit := min 7 (max 1 x.abstainLimit), patrolBase := max 1 x.patrolBase
          decayPeriod := max 1 x.decayPeriod, highMark := h, lowMark := l, holdTime := max 1 x.holdTime
          retryLimit :=
            if x.retryLimit ≤ 3 then 2 else if x.retryLimit ≤ 7 then 4 else if x.retryLimit ≤ 15 then 8 else 16 }
        ∃ g t, exec (.apply r) s = .next t ∧
          (∀ p, t.ports.at p =
            (s.ports.at p).hand { lane := x.lane, frame := .state .standby s.lane.lastClosed }) ∧
          (∀ q, (s.setPages g).page q =
            if maps q = true then (if cancels = true then { s.page q with uncaptured := false } else s.page q)
            else PageRec.fresh) ∧
          t =
            ((({ s with
                pages := g
                suspects := s.suspects.filter (fun a => maps (a / 64))
                queue := { s.queue with run := if h ≤ count then true else if count ≤ l then false else s.queue.run }
                patrol := { s.patrol with cursor := cursorMoved ((List.range 256).filter maps) s.patrol.cursor }
                journal := { s.journal with
                  state := .broken, records := [], base := none
                  start := if cancels = true then none else s.journal.start }
                rest := { s.rest with
                  list := left
                  op :=
                    match s.rest.op with
                    | .page p _ _ _ => if maps p = true then s.rest.op else .none
                    | o => o }
                ckpt :=
                  if cancels = true then
                    { (s.ckpt.putSlot slot { state := .erasing, generation := none, cycle := none, start := none }) with
                      state := .erasing, buffer := [], cycle := none, start := none, captured := 0, toCapture := 0
                      erased := 0, begun := false, asked := false }
                  else s.ckpt
                ctl :=
                  if cancels = false then s.ctl
                  else if s.ctl.op = none then { s.ctl with op := some (.programAbandon slot), waiting := kept }
                  else { s.ctl with waiting := kept ++ [.programAbandon slot] }
                lane := { s.lane with
                  state := .standby, peer1 := Peer.fresh (some (expectedLane x.lane .one))
                  peer2 := Peer.fresh (some (expectedLane x.lane .two)) }
                faults := { s.faults with mask := x.alertMask }
                comm := { s.comm with inUse := some inUse } } : State).replying .apply r.tag .ok .empty).handBoth
              (.state .standby s.lane.lastClosed)).withAlert)) ∧
    (s.serves .configure r →
      (s.lane.state ≠ .standby → exec (.configure r) s = .next (s.replying .configure r.tag .wrongState .empty)) ∧
      (s.lane.state = .standby → s.comm.locked = true →
        exec (.configure r) s = .next (s.replying .configure r.tag .locked .empty)) ∧
      (s.lane.state = .standby → s.comm.locked = false → s.xfer.role ≠ .receiver .asking →
        exec (.configure r) s = .next
          (((s.rested .config).replying .configure r.tag .ok .empty).handBoth (.state .config s.lane.lastClosed))) ∧
      (∀ d p, s.lane.state = .standby → s.comm.locked = false → s.xfer.role = .receiver .asking →
        s.xfer.partner = some (d, p) → s.roomFor 16 →
        exec (.configure r) s = .next
          (((((s.hand p (.joinAbort .receiverLeft)).receptionOver none .receiverLeft).rested .config).replying
            .configure r.tag .ok .empty).handBoth (.state .config s.lane.lastClosed)).withAlert))

/-! ### Faults and fault pressure (chapters 3 and 9) -/

/-- From R45, R46, R48 to R50, R142 and R149. A raise adds its kind to both sets and its weight to P, at most 1023, with the pace that P
gives; an addition from below 512 to 512 or more raises PRESSURE_HIGH too; in FORMING and ACTIVE one from below 768 to 768 or
more raises SELF_WITHDRAWN and takes the lane to EXCLUDED, which ends the donation of an ACTIVE donor with DONOR_LEFT, its JOIN_FAILED and
its frame (placed before that of the raise by the model's choice, log entry 60). A frame goes to an empty primary slot, then to an empty secondary slot;
otherwise the indicator is set, and the frame replaces a secondary of a family ranked lower: CLOSING, TRANSFER, ACCESS, PATROL,
LINK. -/
def Obligations.FaultsAreRaisedAndPlaced : Prop :=
  ∀ (s : State) (k : FaultKind) (w : Nat) (f : FaultFrame),
    let p := s.pressure.p
    let q := min 1023 (p + w)
    let high : KindSet := if p < 512 ∧ 512 ≤ q then FaultKind.pressureHigh.bit else 0
    let votes := s.lane.state = .forming ∨ s.lane.state = .active
    let t := s.raise k w
    let family : FaultFrame → Nat
      | .closing .. => 5 | .transfer .. => 4 | .access .. => 3 | .patrol .. => 2 | .link .. => 1
    (q < 512 → t = s.raised k w) ∧
    (¬ (p < 768 ∧ 768 ≤ q ∧ votes) →
      t.faults.current = s.faults.current ||| k.bit ||| high ∧ t.faults.accrued = s.faults.accrued ||| k.bit ||| high ∧
        t.faults.any = true ∧ t.pressure.p = q ∧ t.lane = s.lane ∧
        (q ≠ p → t.patrol.pace = paceAfter q s.patrol.pace)) ∧
    (p < 768 ∧ 768 ≤ q → s.lane.state = .active → s.xfer.role = .donor →
      t.lane.state = .excluded ∧ t.lane.permitMark = false ∧ t.xfer = Transfer.fresh ∧ t.pressure.p = min 1023 (q + 16) ∧
        t.faults.current =
          s.faults.current ||| k.bit ||| high ||| FaultKind.selfWithdrawn.bit ||| FaultKind.joinFailed.bit ∧
        t.faults.any = true ∧ t.notes.moved = true ∧ t.notes.withdrawn = true ∧
        (∀ d x, s.xfer.partner = some (d, x) → t.ports = (s.hand x (.joinAbort .donorLeft)).ports) ∧
        (s.faults.primary = none →
          t.faults.primary = some (.transfer .joinFailed .donate none none 0 .donorLeft))) ∧
    (p < 768 ∧ 768 ≤ q ∧ votes → ¬ (s.lane.state = .active ∧ s.xfer.role = .donor) →
      t.lane.state = .excluded ∧ t.lane.permitMark = (if s.lane.state = .active then false else s.lane.permitMark) ∧
        t.faults.current = s.faults.current ||| k.bit ||| high ||| FaultKind.selfWithdrawn.bit ∧
        t.faults.any = true ∧ t.pressure.p = q ∧ t.notes.moved = true ∧ t.notes.withdrawn = true) ∧
    (s.faults.primary = none → s.placeFrame f = s.framed f) ∧
    (∀ g, s.faults.primary = some g → s.faults.secondary = none →
      s.placeFrame f = { s with faults := { s.faults with secondary := some f } }) ∧
    (∀ g h, s.faults.primary = some g → s.faults.secondary = some h →
      s.placeFrame f = { s with
        faults := { s.faults with secondary := if family h < family f then some f else some h, lost := true } })
end

