-- ==== Sys2Proof/Laws/Bytes.lean ====
section
/-! SUPPORT. What the byte forms give back: the fields of a request or lane frame read from the bytes that carry them. -/

namespace Sys2Proof.Machine

/-- A half sent most significant byte first reads as itself. -/
theorem half_halfBytes (x : Half) : half (x.extractLsb' 8 8) (x.extractLsb' 0 8) = x := by
  simp only [half]
  ext i hi
  simp only [BitVec.getElem_append, BitVec.getElem_extractLsb']
  split
  · simp [BitVec.getLsbD_eq_getElem, hi]
  · have : 8 + (i - 8) = i := by omega
    simp [this, BitVec.getLsbD_eq_getElem, hi]

/-- A word sent most significant byte first reads as itself. -/
theorem word_wordBytes (x : Word) :
    word (x.extractLsb' 24 8) (x.extractLsb' 16 8) (x.extractLsb' 8 8) (x.extractLsb' 0 8) = x := by
  simp only [word]
  ext i hi
  simp only [BitVec.getElem_append, BitVec.getElem_extractLsb']
  split_ifs <;> simp only [← BitVec.getLsbD_eq_getElem] <;> congr 1 <;> omega

/-- A run of values reads as it was sent. -/
theorem wordsOfBytes_bytesOfWords (ws : List Word) : wordsOfBytes (bytesOfWords ws) = some ws := by
  induction ws with
  | nil => rfl
  | cons w ws ih =>
    simp only [bytesOfWords, wordBytes, List.cons_append, List.nil_append, wordsOfBytes, ih, word_wordBytes]

theorem length_bytesOfWords (ws : List Word) : (bytesOfWords ws).length = 4 * ws.length := by
  induction ws with
  | nil => rfl
  | cons w ws ih => simp [bytesOfWords, wordBytes, ih]; omega

end Sys2Proof.Machine
end

