-- ==== Sys2Proof/Laws/State.lean ====
section
/-! SUPPORT. One lemma per field per named update of State, each true by rfl, so that no later proof unfolds a record
update. -/

namespace Sys2Proof.Machine

variable (s : State)

@[simp] theorem State.setPhase_phase (x : PartPhase) : (s.setPhase x).phase = x := rfl
@[simp] theorem State.setPhase_lrst (x : PartPhase) : (s.setPhase x).lrst = s.lrst := rfl
@[simp] theorem State.setPhase_powerOns (x : PartPhase) : (s.setPhase x).powerOns = s.powerOns := rfl
@[simp] theorem State.setPhase_free (x : PartPhase) : (s.setPhase x).free = s.free := rfl
@[simp] theorem State.setPhase_pending (x : PartPhase) : (s.setPhase x).pending = s.pending := rfl
@[simp] theorem State.setPhase_image (x : PartPhase) : (s.setPhase x).image = s.image := rfl
@[simp] theorem State.setPhase_pages (x : PartPhase) : (s.setPhase x).pages = s.pages := rfl
@[simp] theorem State.setPhase_hostGrants (x : PartPhase) : (s.setPhase x).hostGrants = s.hostGrants := rfl
@[simp] theorem State.setPhase_link (x : PartPhase) : (s.setPhase x).link = s.link := rfl
@[simp] theorem State.setPhase_queue (x : PartPhase) : (s.setPhase x).queue = s.queue := rfl
@[simp] theorem State.setPhase_journal (x : PartPhase) : (s.setPhase x).journal = s.journal := rfl
@[simp] theorem State.setPhase_patrol (x : PartPhase) : (s.setPhase x).patrol = s.patrol := rfl
@[simp] theorem State.setPhase_suspects (x : PartPhase) : (s.setPhase x).suspects = s.suspects := rfl
@[simp] theorem State.setPhase_pressure (x : PartPhase) : (s.setPhase x).pressure = s.pressure := rfl
@[simp] theorem State.setPhase_sign (x : PartPhase) : (s.setPhase x).sign = s.sign := rfl
@[simp] theorem State.setPhase_lane (x : PartPhase) : (s.setPhase x).lane = s.lane := rfl
@[simp] theorem State.setPhase_ports (x : PartPhase) : (s.setPhase x).ports = s.ports := rfl
@[simp] theorem State.setPhase_array (x : PartPhase) : (s.setPhase x).array = s.array := rfl
@[simp] theorem State.setPhase_ctl (x : PartPhase) : (s.setPhase x).ctl = s.ctl := rfl
@[simp] theorem State.setPhase_ckpt (x : PartPhase) : (s.setPhase x).ckpt = s.ckpt := rfl
@[simp] theorem State.setPhase_rest (x : PartPhase) : (s.setPhase x).rest = s.rest := rfl
@[simp] theorem State.setPhase_xfer (x : PartPhase) : (s.setPhase x).xfer = s.xfer := rfl
@[simp] theorem State.setPhase_faults (x : PartPhase) : (s.setPhase x).faults = s.faults := rfl
@[simp] theorem State.setPhase_comm (x : PartPhase) : (s.setPhase x).comm = s.comm := rfl
@[simp] theorem State.setPhase_pins (x : PartPhase) : (s.setPhase x).pins = s.pins := rfl
@[simp] theorem State.setPhase_notes (x : PartPhase) : (s.setPhase x).notes = s.notes := rfl
@[simp] theorem State.setLrst_phase (x : Bool) : (s.setLrst x).phase = s.phase := rfl
@[simp] theorem State.setLrst_lrst (x : Bool) : (s.setLrst x).lrst = x := rfl
@[simp] theorem State.setLrst_powerOns (x : Bool) : (s.setLrst x).powerOns = s.powerOns := rfl
@[simp] theorem State.setLrst_free (x : Bool) : (s.setLrst x).free = s.free := rfl
@[simp] theorem State.setLrst_pending (x : Bool) : (s.setLrst x).pending = s.pending := rfl
@[simp] theorem State.setLrst_image (x : Bool) : (s.setLrst x).image = s.image := rfl
@[simp] theorem State.setLrst_pages (x : Bool) : (s.setLrst x).pages = s.pages := rfl
@[simp] theorem State.setLrst_hostGrants (x : Bool) : (s.setLrst x).hostGrants = s.hostGrants := rfl
@[simp] theorem State.setLrst_link (x : Bool) : (s.setLrst x).link = s.link := rfl
@[simp] theorem State.setLrst_queue (x : Bool) : (s.setLrst x).queue = s.queue := rfl
@[simp] theorem State.setLrst_journal (x : Bool) : (s.setLrst x).journal = s.journal := rfl
@[simp] theorem State.setLrst_patrol (x : Bool) : (s.setLrst x).patrol = s.patrol := rfl
@[simp] theorem State.setLrst_suspects (x : Bool) : (s.setLrst x).suspects = s.suspects := rfl
@[simp] theorem State.setLrst_pressure (x : Bool) : (s.setLrst x).pressure = s.pressure := rfl
@[simp] theorem State.setLrst_sign (x : Bool) : (s.setLrst x).sign = s.sign := rfl
@[simp] theorem State.setLrst_lane (x : Bool) : (s.setLrst x).lane = s.lane := rfl
@[simp] theorem State.setLrst_ports (x : Bool) : (s.setLrst x).ports = s.ports := rfl
@[simp] theorem State.setLrst_array (x : Bool) : (s.setLrst x).array = s.array := rfl
@[simp] theorem State.setLrst_ctl (x : Bool) : (s.setLrst x).ctl = s.ctl := rfl
@[simp] theorem State.setLrst_ckpt (x : Bool) : (s.setLrst x).ckpt = s.ckpt := rfl
@[simp] theorem State.setLrst_rest (x : Bool) : (s.setLrst x).rest = s.rest := rfl
@[simp] theorem State.setLrst_xfer (x : Bool) : (s.setLrst x).xfer = s.xfer := rfl
@[simp] theorem State.setLrst_faults (x : Bool) : (s.setLrst x).faults = s.faults := rfl
@[simp] theorem State.setLrst_comm (x : Bool) : (s.setLrst x).comm = s.comm := rfl
@[simp] theorem State.setLrst_pins (x : Bool) : (s.setLrst x).pins = s.pins := rfl
@[simp] theorem State.setLrst_notes (x : Bool) : (s.setLrst x).notes = s.notes := rfl
@[simp] theorem State.setPowerOns_phase (x : Nat) : (s.setPowerOns x).phase = s.phase := rfl
@[simp] theorem State.setPowerOns_lrst (x : Nat) : (s.setPowerOns x).lrst = s.lrst := rfl
@[simp] theorem State.setPowerOns_powerOns (x : Nat) : (s.setPowerOns x).powerOns = x := rfl
@[simp] theorem State.setPowerOns_free (x : Nat) : (s.setPowerOns x).free = s.free := rfl
@[simp] theorem State.setPowerOns_pending (x : Nat) : (s.setPowerOns x).pending = s.pending := rfl
@[simp] theorem State.setPowerOns_image (x : Nat) : (s.setPowerOns x).image = s.image := rfl
@[simp] theorem State.setPowerOns_pages (x : Nat) : (s.setPowerOns x).pages = s.pages := rfl
@[simp] theorem State.setPowerOns_hostGrants (x : Nat) : (s.setPowerOns x).hostGrants = s.hostGrants := rfl
@[simp] theorem State.setPowerOns_link (x : Nat) : (s.setPowerOns x).link = s.link := rfl
@[simp] theorem State.setPowerOns_queue (x : Nat) : (s.setPowerOns x).queue = s.queue := rfl
@[simp] theorem State.setPowerOns_journal (x : Nat) : (s.setPowerOns x).journal = s.journal := rfl
@[simp] theorem State.setPowerOns_patrol (x : Nat) : (s.setPowerOns x).patrol = s.patrol := rfl
@[simp] theorem State.setPowerOns_suspects (x : Nat) : (s.setPowerOns x).suspects = s.suspects := rfl
@[simp] theorem State.setPowerOns_pressure (x : Nat) : (s.setPowerOns x).pressure = s.pressure := rfl
@[simp] theorem State.setPowerOns_sign (x : Nat) : (s.setPowerOns x).sign = s.sign := rfl
@[simp] theorem State.setPowerOns_lane (x : Nat) : (s.setPowerOns x).lane = s.lane := rfl
@[simp] theorem State.setPowerOns_ports (x : Nat) : (s.setPowerOns x).ports = s.ports := rfl
@[simp] theorem State.setPowerOns_array (x : Nat) : (s.setPowerOns x).array = s.array := rfl
@[simp] theorem State.setPowerOns_ctl (x : Nat) : (s.setPowerOns x).ctl = s.ctl := rfl
@[simp] theorem State.setPowerOns_ckpt (x : Nat) : (s.setPowerOns x).ckpt = s.ckpt := rfl
@[simp] theorem State.setPowerOns_rest (x : Nat) : (s.setPowerOns x).rest = s.rest := rfl
@[simp] theorem State.setPowerOns_xfer (x : Nat) : (s.setPowerOns x).xfer = s.xfer := rfl
@[simp] theorem State.setPowerOns_faults (x : Nat) : (s.setPowerOns x).faults = s.faults := rfl
@[simp] theorem State.setPowerOns_comm (x : Nat) : (s.setPowerOns x).comm = s.comm := rfl
@[simp] theorem State.setPowerOns_pins (x : Nat) : (s.setPowerOns x).pins = s.pins := rfl
@[simp] theorem State.setPowerOns_notes (x : Nat) : (s.setPowerOns x).notes = s.notes := rfl
@[simp] theorem State.setFree_phase (x : Nat) : (s.setFree x).phase = s.phase := rfl
@[simp] theorem State.setFree_lrst (x : Nat) : (s.setFree x).lrst = s.lrst := rfl
@[simp] theorem State.setFree_powerOns (x : Nat) : (s.setFree x).powerOns = s.powerOns := rfl
@[simp] theorem State.setFree_free (x : Nat) : (s.setFree x).free = x := rfl
@[simp] theorem State.setFree_pending (x : Nat) : (s.setFree x).pending = s.pending := rfl
@[simp] theorem State.setFree_image (x : Nat) : (s.setFree x).image = s.image := rfl
@[simp] theorem State.setFree_pages (x : Nat) : (s.setFree x).pages = s.pages := rfl
@[simp] theorem State.setFree_hostGrants (x : Nat) : (s.setFree x).hostGrants = s.hostGrants := rfl
@[simp] theorem State.setFree_link (x : Nat) : (s.setFree x).link = s.link := rfl
@[simp] theorem State.setFree_queue (x : Nat) : (s.setFree x).queue = s.queue := rfl
@[simp] theorem State.setFree_journal (x : Nat) : (s.setFree x).journal = s.journal := rfl
@[simp] theorem State.setFree_patrol (x : Nat) : (s.setFree x).patrol = s.patrol := rfl
@[simp] theorem State.setFree_suspects (x : Nat) : (s.setFree x).suspects = s.suspects := rfl
@[simp] theorem State.setFree_pressure (x : Nat) : (s.setFree x).pressure = s.pressure := rfl
@[simp] theorem State.setFree_sign (x : Nat) : (s.setFree x).sign = s.sign := rfl
@[simp] theorem State.setFree_lane (x : Nat) : (s.setFree x).lane = s.lane := rfl
@[simp] theorem State.setFree_ports (x : Nat) : (s.setFree x).ports = s.ports := rfl
@[simp] theorem State.setFree_array (x : Nat) : (s.setFree x).array = s.array := rfl
@[simp] theorem State.setFree_ctl (x : Nat) : (s.setFree x).ctl = s.ctl := rfl
@[simp] theorem State.setFree_ckpt (x : Nat) : (s.setFree x).ckpt = s.ckpt := rfl
@[simp] theorem State.setFree_rest (x : Nat) : (s.setFree x).rest = s.rest := rfl
@[simp] theorem State.setFree_xfer (x : Nat) : (s.setFree x).xfer = s.xfer := rfl
@[simp] theorem State.setFree_faults (x : Nat) : (s.setFree x).faults = s.faults := rfl
@[simp] theorem State.setFree_comm (x : Nat) : (s.setFree x).comm = s.comm := rfl
@[simp] theorem State.setFree_pins (x : Nat) : (s.setFree x).pins = s.pins := rfl
@[simp] theorem State.setFree_notes (x : Nat) : (s.setFree x).notes = s.notes := rfl
@[simp] theorem State.setPending_phase (x : List Instr) : (s.setPending x).phase = s.phase := rfl
@[simp] theorem State.setPending_lrst (x : List Instr) : (s.setPending x).lrst = s.lrst := rfl
@[simp] theorem State.setPending_powerOns (x : List Instr) : (s.setPending x).powerOns = s.powerOns := rfl
@[simp] theorem State.setPending_free (x : List Instr) : (s.setPending x).free = s.free := rfl
@[simp] theorem State.setPending_pending (x : List Instr) : (s.setPending x).pending = x := rfl
@[simp] theorem State.setPending_image (x : List Instr) : (s.setPending x).image = s.image := rfl
@[simp] theorem State.setPending_pages (x : List Instr) : (s.setPending x).pages = s.pages := rfl
@[simp] theorem State.setPending_hostGrants (x : List Instr) : (s.setPending x).hostGrants = s.hostGrants := rfl
@[simp] theorem State.setPending_link (x : List Instr) : (s.setPending x).link = s.link := rfl
@[simp] theorem State.setPending_queue (x : List Instr) : (s.setPending x).queue = s.queue := rfl
@[simp] theorem State.setPending_journal (x : List Instr) : (s.setPending x).journal = s.journal := rfl
@[simp] theorem State.setPending_patrol (x : List Instr) : (s.setPending x).patrol = s.patrol := rfl
@[simp] theorem State.setPending_suspects (x : List Instr) : (s.setPending x).suspects = s.suspects := rfl
@[simp] theorem State.setPending_pressure (x : List Instr) : (s.setPending x).pressure = s.pressure := rfl
@[simp] theorem State.setPending_sign (x : List Instr) : (s.setPending x).sign = s.sign := rfl
@[simp] theorem State.setPending_lane (x : List Instr) : (s.setPending x).lane = s.lane := rfl
@[simp] theorem State.setPending_ports (x : List Instr) : (s.setPending x).ports = s.ports := rfl
@[simp] theorem State.setPending_array (x : List Instr) : (s.setPending x).array = s.array := rfl
@[simp] theorem State.setPending_ctl (x : List Instr) : (s.setPending x).ctl = s.ctl := rfl
@[simp] theorem State.setPending_ckpt (x : List Instr) : (s.setPending x).ckpt = s.ckpt := rfl
@[simp] theorem State.setPending_rest (x : List Instr) : (s.setPending x).rest = s.rest := rfl
@[simp] theorem State.setPending_xfer (x : List Instr) : (s.setPending x).xfer = s.xfer := rfl
@[simp] theorem State.setPending_faults (x : List Instr) : (s.setPending x).faults = s.faults := rfl
@[simp] theorem State.setPending_comm (x : List Instr) : (s.setPending x).comm = s.comm := rfl
@[simp] theorem State.setPending_pins (x : List Instr) : (s.setPending x).pins = s.pins := rfl
@[simp] theorem State.setPending_notes (x : List Instr) : (s.setPending x).notes = s.notes := rfl
@[simp] theorem State.setImage_phase (x : List (Nat × Option StoredCell)) : (s.setImage x).phase = s.phase := rfl
@[simp] theorem State.setImage_lrst (x : List (Nat × Option StoredCell)) : (s.setImage x).lrst = s.lrst := rfl
@[simp] theorem State.setImage_powerOns (x : List (Nat × Option StoredCell)) : (s.setImage x).powerOns = s.powerOns := rfl
@[simp] theorem State.setImage_free (x : List (Nat × Option StoredCell)) : (s.setImage x).free = s.free := rfl
@[simp] theorem State.setImage_pending (x : List (Nat × Option StoredCell)) : (s.setImage x).pending = s.pending := rfl
@[simp] theorem State.setImage_image (x : List (Nat × Option StoredCell)) : (s.setImage x).image = x := rfl
@[simp] theorem State.setImage_pages (x : List (Nat × Option StoredCell)) : (s.setImage x).pages = s.pages := rfl
@[simp] theorem State.setImage_hostGrants (x : List (Nat × Option StoredCell)) : (s.setImage x).hostGrants = s.hostGrants := rfl
@[simp] theorem State.setImage_link (x : List (Nat × Option StoredCell)) : (s.setImage x).link = s.link := rfl
@[simp] theorem State.setImage_queue (x : List (Nat × Option StoredCell)) : (s.setImage x).queue = s.queue := rfl
@[simp] theorem State.setImage_journal (x : List (Nat × Option StoredCell)) : (s.setImage x).journal = s.journal := rfl
@[simp] theorem State.setImage_patrol (x : List (Nat × Option StoredCell)) : (s.setImage x).patrol = s.patrol := rfl
@[simp] theorem State.setImage_suspects (x : List (Nat × Option StoredCell)) : (s.setImage x).suspects = s.suspects := rfl
@[simp] theorem State.setImage_pressure (x : List (Nat × Option StoredCell)) : (s.setImage x).pressure = s.pressure := rfl
@[simp] theorem State.setImage_sign (x : List (Nat × Option StoredCell)) : (s.setImage x).sign = s.sign := rfl
@[simp] theorem State.setImage_lane (x : List (Nat × Option StoredCell)) : (s.setImage x).lane = s.lane := rfl
@[simp] theorem State.setImage_ports (x : List (Nat × Option StoredCell)) : (s.setImage x).ports = s.ports := rfl
@[simp] theorem State.setImage_array (x : List (Nat × Option StoredCell)) : (s.setImage x).array = s.array := rfl
@[simp] theorem State.setImage_ctl (x : List (Nat × Option StoredCell)) : (s.setImage x).ctl = s.ctl := rfl
@[simp] theorem State.setImage_ckpt (x : List (Nat × Option StoredCell)) : (s.setImage x).ckpt = s.ckpt := rfl
@[simp] theorem State.setImage_rest (x : List (Nat × Option StoredCell)) : (s.setImage x).rest = s.rest := rfl
@[simp] theorem State.setImage_xfer (x : List (Nat × Option StoredCell)) : (s.setImage x).xfer = s.xfer := rfl
@[simp] theorem State.setImage_faults (x : List (Nat × Option StoredCell)) : (s.setImage x).faults = s.faults := rfl
@[simp] theorem State.setImage_comm (x : List (Nat × Option StoredCell)) : (s.setImage x).comm = s.comm := rfl
@[simp] theorem State.setImage_pins (x : List (Nat × Option StoredCell)) : (s.setImage x).pins = s.pins := rfl
@[simp] theorem State.setImage_notes (x : List (Nat × Option StoredCell)) : (s.setImage x).notes = s.notes := rfl
@[simp] theorem State.setPages_phase (x : List (Nat × PageRec)) : (s.setPages x).phase = s.phase := rfl
@[simp] theorem State.setPages_lrst (x : List (Nat × PageRec)) : (s.setPages x).lrst = s.lrst := rfl
@[simp] theorem State.setPages_powerOns (x : List (Nat × PageRec)) : (s.setPages x).powerOns = s.powerOns := rfl
@[simp] theorem State.setPages_free (x : List (Nat × PageRec)) : (s.setPages x).free = s.free := rfl
@[simp] theorem State.setPages_pending (x : List (Nat × PageRec)) : (s.setPages x).pending = s.pending := rfl
@[simp] theorem State.setPages_image (x : List (Nat × PageRec)) : (s.setPages x).image = s.image := rfl
@[simp] theorem State.setPages_pages (x : List (Nat × PageRec)) : (s.setPages x).pages = x := rfl
@[simp] theorem State.setPages_hostGrants (x : List (Nat × PageRec)) : (s.setPages x).hostGrants = s.hostGrants := rfl
@[simp] theorem State.setPages_link (x : List (Nat × PageRec)) : (s.setPages x).link = s.link := rfl
@[simp] theorem State.setPages_queue (x : List (Nat × PageRec)) : (s.setPages x).queue = s.queue := rfl
@[simp] theorem State.setPages_journal (x : List (Nat × PageRec)) : (s.setPages x).journal = s.journal := rfl
@[simp] theorem State.setPages_patrol (x : List (Nat × PageRec)) : (s.setPages x).patrol = s.patrol := rfl
@[simp] theorem State.setPages_suspects (x : List (Nat × PageRec)) : (s.setPages x).suspects = s.suspects := rfl
@[simp] theorem State.setPages_pressure (x : List (Nat × PageRec)) : (s.setPages x).pressure = s.pressure := rfl
@[simp] theorem State.setPages_sign (x : List (Nat × PageRec)) : (s.setPages x).sign = s.sign := rfl
@[simp] theorem State.setPages_lane (x : List (Nat × PageRec)) : (s.setPages x).lane = s.lane := rfl
@[simp] theorem State.setPages_ports (x : List (Nat × PageRec)) : (s.setPages x).ports = s.ports := rfl
@[simp] theorem State.setPages_array (x : List (Nat × PageRec)) : (s.setPages x).array = s.array := rfl
@[simp] theorem State.setPages_ctl (x : List (Nat × PageRec)) : (s.setPages x).ctl = s.ctl := rfl
@[simp] theorem State.setPages_ckpt (x : List (Nat × PageRec)) : (s.setPages x).ckpt = s.ckpt := rfl
@[simp] theorem State.setPages_rest (x : List (Nat × PageRec)) : (s.setPages x).rest = s.rest := rfl
@[simp] theorem State.setPages_xfer (x : List (Nat × PageRec)) : (s.setPages x).xfer = s.xfer := rfl
@[simp] theorem State.setPages_faults (x : List (Nat × PageRec)) : (s.setPages x).faults = s.faults := rfl
@[simp] theorem State.setPages_comm (x : List (Nat × PageRec)) : (s.setPages x).comm = s.comm := rfl
@[simp] theorem State.setPages_pins (x : List (Nat × PageRec)) : (s.setPages x).pins = s.pins := rfl
@[simp] theorem State.setPages_notes (x : List (Nat × PageRec)) : (s.setPages x).notes = s.notes := rfl
@[simp] theorem State.setHostGrants_phase (x : Nat) : (s.setHostGrants x).phase = s.phase := rfl
@[simp] theorem State.setHostGrants_lrst (x : Nat) : (s.setHostGrants x).lrst = s.lrst := rfl
@[simp] theorem State.setHostGrants_powerOns (x : Nat) : (s.setHostGrants x).powerOns = s.powerOns := rfl
@[simp] theorem State.setHostGrants_free (x : Nat) : (s.setHostGrants x).free = s.free := rfl
@[simp] theorem State.setHostGrants_pending (x : Nat) : (s.setHostGrants x).pending = s.pending := rfl
@[simp] theorem State.setHostGrants_image (x : Nat) : (s.setHostGrants x).image = s.image := rfl
@[simp] theorem State.setHostGrants_pages (x : Nat) : (s.setHostGrants x).pages = s.pages := rfl
@[simp] theorem State.setHostGrants_hostGrants (x : Nat) : (s.setHostGrants x).hostGrants = x := rfl
@[simp] theorem State.setHostGrants_link (x : Nat) : (s.setHostGrants x).link = s.link := rfl
@[simp] theorem State.setHostGrants_queue (x : Nat) : (s.setHostGrants x).queue = s.queue := rfl
@[simp] theorem State.setHostGrants_journal (x : Nat) : (s.setHostGrants x).journal = s.journal := rfl
@[simp] theorem State.setHostGrants_patrol (x : Nat) : (s.setHostGrants x).patrol = s.patrol := rfl
@[simp] theorem State.setHostGrants_suspects (x : Nat) : (s.setHostGrants x).suspects = s.suspects := rfl
@[simp] theorem State.setHostGrants_pressure (x : Nat) : (s.setHostGrants x).pressure = s.pressure := rfl
@[simp] theorem State.setHostGrants_sign (x : Nat) : (s.setHostGrants x).sign = s.sign := rfl
@[simp] theorem State.setHostGrants_lane (x : Nat) : (s.setHostGrants x).lane = s.lane := rfl
@[simp] theorem State.setHostGrants_ports (x : Nat) : (s.setHostGrants x).ports = s.ports := rfl
@[simp] theorem State.setHostGrants_array (x : Nat) : (s.setHostGrants x).array = s.array := rfl
@[simp] theorem State.setHostGrants_ctl (x : Nat) : (s.setHostGrants x).ctl = s.ctl := rfl
@[simp] theorem State.setHostGrants_ckpt (x : Nat) : (s.setHostGrants x).ckpt = s.ckpt := rfl
@[simp] theorem State.setHostGrants_rest (x : Nat) : (s.setHostGrants x).rest = s.rest := rfl
@[simp] theorem State.setHostGrants_xfer (x : Nat) : (s.setHostGrants x).xfer = s.xfer := rfl
@[simp] theorem State.setHostGrants_faults (x : Nat) : (s.setHostGrants x).faults = s.faults := rfl
@[simp] theorem State.setHostGrants_comm (x : Nat) : (s.setHostGrants x).comm = s.comm := rfl
@[simp] theorem State.setHostGrants_pins (x : Nat) : (s.setHostGrants x).pins = s.pins := rfl
@[simp] theorem State.setHostGrants_notes (x : Nat) : (s.setHostGrants x).notes = s.notes := rfl
@[simp] theorem State.setLink_phase (x : Link) : (s.setLink x).phase = s.phase := rfl
@[simp] theorem State.setLink_lrst (x : Link) : (s.setLink x).lrst = s.lrst := rfl
@[simp] theorem State.setLink_powerOns (x : Link) : (s.setLink x).powerOns = s.powerOns := rfl
@[simp] theorem State.setLink_free (x : Link) : (s.setLink x).free = s.free := rfl
@[simp] theorem State.setLink_pending (x : Link) : (s.setLink x).pending = s.pending := rfl
@[simp] theorem State.setLink_image (x : Link) : (s.setLink x).image = s.image := rfl
@[simp] theorem State.setLink_pages (x : Link) : (s.setLink x).pages = s.pages := rfl
@[simp] theorem State.setLink_hostGrants (x : Link) : (s.setLink x).hostGrants = s.hostGrants := rfl
@[simp] theorem State.setLink_link (x : Link) : (s.setLink x).link = x := rfl
@[simp] theorem State.setLink_queue (x : Link) : (s.setLink x).queue = s.queue := rfl
@[simp] theorem State.setLink_journal (x : Link) : (s.setLink x).journal = s.journal := rfl
@[simp] theorem State.setLink_patrol (x : Link) : (s.setLink x).patrol = s.patrol := rfl
@[simp] theorem State.setLink_suspects (x : Link) : (s.setLink x).suspects = s.suspects := rfl
@[simp] theorem State.setLink_pressure (x : Link) : (s.setLink x).pressure = s.pressure := rfl
@[simp] theorem State.setLink_sign (x : Link) : (s.setLink x).sign = s.sign := rfl
@[simp] theorem State.setLink_lane (x : Link) : (s.setLink x).lane = s.lane := rfl
@[simp] theorem State.setLink_ports (x : Link) : (s.setLink x).ports = s.ports := rfl
@[simp] theorem State.setLink_array (x : Link) : (s.setLink x).array = s.array := rfl
@[simp] theorem State.setLink_ctl (x : Link) : (s.setLink x).ctl = s.ctl := rfl
@[simp] theorem State.setLink_ckpt (x : Link) : (s.setLink x).ckpt = s.ckpt := rfl
@[simp] theorem State.setLink_rest (x : Link) : (s.setLink x).rest = s.rest := rfl
@[simp] theorem State.setLink_xfer (x : Link) : (s.setLink x).xfer = s.xfer := rfl
@[simp] theorem State.setLink_faults (x : Link) : (s.setLink x).faults = s.faults := rfl
@[simp] theorem State.setLink_comm (x : Link) : (s.setLink x).comm = s.comm := rfl
@[simp] theorem State.setLink_pins (x : Link) : (s.setLink x).pins = s.pins := rfl
@[simp] theorem State.setLink_notes (x : Link) : (s.setLink x).notes = s.notes := rfl
@[simp] theorem State.setQueue_phase (x : Queue) : (s.setQueue x).phase = s.phase := rfl
@[simp] theorem State.setQueue_lrst (x : Queue) : (s.setQueue x).lrst = s.lrst := rfl
@[simp] theorem State.setQueue_powerOns (x : Queue) : (s.setQueue x).powerOns = s.powerOns := rfl
@[simp] theorem State.setQueue_free (x : Queue) : (s.setQueue x).free = s.free := rfl
@[simp] theorem State.setQueue_pending (x : Queue) : (s.setQueue x).pending = s.pending := rfl
@[simp] theorem State.setQueue_image (x : Queue) : (s.setQueue x).image = s.image := rfl
@[simp] theorem State.setQueue_pages (x : Queue) : (s.setQueue x).pages = s.pages := rfl
@[simp] theorem State.setQueue_hostGrants (x : Queue) : (s.setQueue x).hostGrants = s.hostGrants := rfl
@[simp] theorem State.setQueue_link (x : Queue) : (s.setQueue x).link = s.link := rfl
@[simp] theorem State.setQueue_queue (x : Queue) : (s.setQueue x).queue = x := rfl
@[simp] theorem State.setQueue_journal (x : Queue) : (s.setQueue x).journal = s.journal := rfl
@[simp] theorem State.setQueue_patrol (x : Queue) : (s.setQueue x).patrol = s.patrol := rfl
@[simp] theorem State.setQueue_suspects (x : Queue) : (s.setQueue x).suspects = s.suspects := rfl
@[simp] theorem State.setQueue_pressure (x : Queue) : (s.setQueue x).pressure = s.pressure := rfl
@[simp] theorem State.setQueue_sign (x : Queue) : (s.setQueue x).sign = s.sign := rfl
@[simp] theorem State.setQueue_lane (x : Queue) : (s.setQueue x).lane = s.lane := rfl
@[simp] theorem State.setQueue_ports (x : Queue) : (s.setQueue x).ports = s.ports := rfl
@[simp] theorem State.setQueue_array (x : Queue) : (s.setQueue x).array = s.array := rfl
@[simp] theorem State.setQueue_ctl (x : Queue) : (s.setQueue x).ctl = s.ctl := rfl
@[simp] theorem State.setQueue_ckpt (x : Queue) : (s.setQueue x).ckpt = s.ckpt := rfl
@[simp] theorem State.setQueue_rest (x : Queue) : (s.setQueue x).rest = s.rest := rfl
@[simp] theorem State.setQueue_xfer (x : Queue) : (s.setQueue x).xfer = s.xfer := rfl
@[simp] theorem State.setQueue_faults (x : Queue) : (s.setQueue x).faults = s.faults := rfl
@[simp] theorem State.setQueue_comm (x : Queue) : (s.setQueue x).comm = s.comm := rfl
@[simp] theorem State.setQueue_pins (x : Queue) : (s.setQueue x).pins = s.pins := rfl
@[simp] theorem State.setQueue_notes (x : Queue) : (s.setQueue x).notes = s.notes := rfl
@[simp] theorem State.setJournal_phase (x : Journal) : (s.setJournal x).phase = s.phase := rfl
@[simp] theorem State.setJournal_lrst (x : Journal) : (s.setJournal x).lrst = s.lrst := rfl
@[simp] theorem State.setJournal_powerOns (x : Journal) : (s.setJournal x).powerOns = s.powerOns := rfl
@[simp] theorem State.setJournal_free (x : Journal) : (s.setJournal x).free = s.free := rfl
@[simp] theorem State.setJournal_pending (x : Journal) : (s.setJournal x).pending = s.pending := rfl
@[simp] theorem State.setJournal_image (x : Journal) : (s.setJournal x).image = s.image := rfl
@[simp] theorem State.setJournal_pages (x : Journal) : (s.setJournal x).pages = s.pages := rfl
@[simp] theorem State.setJournal_hostGrants (x : Journal) : (s.setJournal x).hostGrants = s.hostGrants := rfl
@[simp] theorem State.setJournal_link (x : Journal) : (s.setJournal x).link = s.link := rfl
@[simp] theorem State.setJournal_queue (x : Journal) : (s.setJournal x).queue = s.queue := rfl
@[simp] theorem State.setJournal_journal (x : Journal) : (s.setJournal x).journal = x := rfl
@[simp] theorem State.setJournal_patrol (x : Journal) : (s.setJournal x).patrol = s.patrol := rfl
@[simp] theorem State.setJournal_suspects (x : Journal) : (s.setJournal x).suspects = s.suspects := rfl
@[simp] theorem State.setJournal_pressure (x : Journal) : (s.setJournal x).pressure = s.pressure := rfl
@[simp] theorem State.setJournal_sign (x : Journal) : (s.setJournal x).sign = s.sign := rfl
@[simp] theorem State.setJournal_lane (x : Journal) : (s.setJournal x).lane = s.lane := rfl
@[simp] theorem State.setJournal_ports (x : Journal) : (s.setJournal x).ports = s.ports := rfl
@[simp] theorem State.setJournal_array (x : Journal) : (s.setJournal x).array = s.array := rfl
@[simp] theorem State.setJournal_ctl (x : Journal) : (s.setJournal x).ctl = s.ctl := rfl
@[simp] theorem State.setJournal_ckpt (x : Journal) : (s.setJournal x).ckpt = s.ckpt := rfl
@[simp] theorem State.setJournal_rest (x : Journal) : (s.setJournal x).rest = s.rest := rfl
@[simp] theorem State.setJournal_xfer (x : Journal) : (s.setJournal x).xfer = s.xfer := rfl
@[simp] theorem State.setJournal_faults (x : Journal) : (s.setJournal x).faults = s.faults := rfl
@[simp] theorem State.setJournal_comm (x : Journal) : (s.setJournal x).comm = s.comm := rfl
@[simp] theorem State.setJournal_pins (x : Journal) : (s.setJournal x).pins = s.pins := rfl
@[simp] theorem State.setJournal_notes (x : Journal) : (s.setJournal x).notes = s.notes := rfl
@[simp] theorem State.setPatrol_phase (x : Patrol) : (s.setPatrol x).phase = s.phase := rfl
@[simp] theorem State.setPatrol_lrst (x : Patrol) : (s.setPatrol x).lrst = s.lrst := rfl
@[simp] theorem State.setPatrol_powerOns (x : Patrol) : (s.setPatrol x).powerOns = s.powerOns := rfl
@[simp] theorem State.setPatrol_free (x : Patrol) : (s.setPatrol x).free = s.free := rfl
@[simp] theorem State.setPatrol_pending (x : Patrol) : (s.setPatrol x).pending = s.pending := rfl
@[simp] theorem State.setPatrol_image (x : Patrol) : (s.setPatrol x).image = s.image := rfl
@[simp] theorem State.setPatrol_pages (x : Patrol) : (s.setPatrol x).pages = s.pages := rfl
@[simp] theorem State.setPatrol_hostGrants (x : Patrol) : (s.setPatrol x).hostGrants = s.hostGrants := rfl
@[simp] theorem State.setPatrol_link (x : Patrol) : (s.setPatrol x).link = s.link := rfl
@[simp] theorem State.setPatrol_queue (x : Patrol) : (s.setPatrol x).queue = s.queue := rfl
@[simp] theorem State.setPatrol_journal (x : Patrol) : (s.setPatrol x).journal = s.journal := rfl
@[simp] theorem State.setPatrol_patrol (x : Patrol) : (s.setPatrol x).patrol = x := rfl
@[simp] theorem State.setPatrol_suspects (x : Patrol) : (s.setPatrol x).suspects = s.suspects := rfl
@[simp] theorem State.setPatrol_pressure (x : Patrol) : (s.setPatrol x).pressure = s.pressure := rfl
@[simp] theorem State.setPatrol_sign (x : Patrol) : (s.setPatrol x).sign = s.sign := rfl
@[simp] theorem State.setPatrol_lane (x : Patrol) : (s.setPatrol x).lane = s.lane := rfl
@[simp] theorem State.setPatrol_ports (x : Patrol) : (s.setPatrol x).ports = s.ports := rfl
@[simp] theorem State.setPatrol_array (x : Patrol) : (s.setPatrol x).array = s.array := rfl
@[simp] theorem State.setPatrol_ctl (x : Patrol) : (s.setPatrol x).ctl = s.ctl := rfl
@[simp] theorem State.setPatrol_ckpt (x : Patrol) : (s.setPatrol x).ckpt = s.ckpt := rfl
@[simp] theorem State.setPatrol_rest (x : Patrol) : (s.setPatrol x).rest = s.rest := rfl
@[simp] theorem State.setPatrol_xfer (x : Patrol) : (s.setPatrol x).xfer = s.xfer := rfl
@[simp] theorem State.setPatrol_faults (x : Patrol) : (s.setPatrol x).faults = s.faults := rfl
@[simp] theorem State.setPatrol_comm (x : Patrol) : (s.setPatrol x).comm = s.comm := rfl
@[simp] theorem State.setPatrol_pins (x : Patrol) : (s.setPatrol x).pins = s.pins := rfl
@[simp] theorem State.setPatrol_notes (x : Patrol) : (s.setPatrol x).notes = s.notes := rfl
@[simp] theorem State.setSuspects_phase (x : List Nat) : (s.setSuspects x).phase = s.phase := rfl
@[simp] theorem State.setSuspects_lrst (x : List Nat) : (s.setSuspects x).lrst = s.lrst := rfl
@[simp] theorem State.setSuspects_powerOns (x : List Nat) : (s.setSuspects x).powerOns = s.powerOns := rfl
@[simp] theorem State.setSuspects_free (x : List Nat) : (s.setSuspects x).free = s.free := rfl
@[simp] theorem State.setSuspects_pending (x : List Nat) : (s.setSuspects x).pending = s.pending := rfl
@[simp] theorem State.setSuspects_image (x : List Nat) : (s.setSuspects x).image = s.image := rfl
@[simp] theorem State.setSuspects_pages (x : List Nat) : (s.setSuspects x).pages = s.pages := rfl
@[simp] theorem State.setSuspects_hostGrants (x : List Nat) : (s.setSuspects x).hostGrants = s.hostGrants := rfl
@[simp] theorem State.setSuspects_link (x : List Nat) : (s.setSuspects x).link = s.link := rfl
@[simp] theorem State.setSuspects_queue (x : List Nat) : (s.setSuspects x).queue = s.queue := rfl
@[simp] theorem State.setSuspects_journal (x : List Nat) : (s.setSuspects x).journal = s.journal := rfl
@[simp] theorem State.setSuspects_patrol (x : List Nat) : (s.setSuspects x).patrol = s.patrol := rfl
@[simp] theorem State.setSuspects_suspects (x : List Nat) : (s.setSuspects x).suspects = x := rfl
@[simp] theorem State.setSuspects_pressure (x : List Nat) : (s.setSuspects x).pressure = s.pressure := rfl
@[simp] theorem State.setSuspects_sign (x : List Nat) : (s.setSuspects x).sign = s.sign := rfl
@[simp] theorem State.setSuspects_lane (x : List Nat) : (s.setSuspects x).lane = s.lane := rfl
@[simp] theorem State.setSuspects_ports (x : List Nat) : (s.setSuspects x).ports = s.ports := rfl
@[simp] theorem State.setSuspects_array (x : List Nat) : (s.setSuspects x).array = s.array := rfl
@[simp] theorem State.setSuspects_ctl (x : List Nat) : (s.setSuspects x).ctl = s.ctl := rfl
@[simp] theorem State.setSuspects_ckpt (x : List Nat) : (s.setSuspects x).ckpt = s.ckpt := rfl
@[simp] theorem State.setSuspects_rest (x : List Nat) : (s.setSuspects x).rest = s.rest := rfl
@[simp] theorem State.setSuspects_xfer (x : List Nat) : (s.setSuspects x).xfer = s.xfer := rfl
@[simp] theorem State.setSuspects_faults (x : List Nat) : (s.setSuspects x).faults = s.faults := rfl
@[simp] theorem State.setSuspects_comm (x : List Nat) : (s.setSuspects x).comm = s.comm := rfl
@[simp] theorem State.setSuspects_pins (x : List Nat) : (s.setSuspects x).pins = s.pins := rfl
@[simp] theorem State.setSuspects_notes (x : List Nat) : (s.setSuspects x).notes = s.notes := rfl
@[simp] theorem State.setPressure_phase (x : Pressure) : (s.setPressure x).phase = s.phase := rfl
@[simp] theorem State.setPressure_lrst (x : Pressure) : (s.setPressure x).lrst = s.lrst := rfl
@[simp] theorem State.setPressure_powerOns (x : Pressure) : (s.setPressure x).powerOns = s.powerOns := rfl
@[simp] theorem State.setPressure_free (x : Pressure) : (s.setPressure x).free = s.free := rfl
@[simp] theorem State.setPressure_pending (x : Pressure) : (s.setPressure x).pending = s.pending := rfl
@[simp] theorem State.setPressure_image (x : Pressure) : (s.setPressure x).image = s.image := rfl
@[simp] theorem State.setPressure_pages (x : Pressure) : (s.setPressure x).pages = s.pages := rfl
@[simp] theorem State.setPressure_hostGrants (x : Pressure) : (s.setPressure x).hostGrants = s.hostGrants := rfl
@[simp] theorem State.setPressure_link (x : Pressure) : (s.setPressure x).link = s.link := rfl
@[simp] theorem State.setPressure_queue (x : Pressure) : (s.setPressure x).queue = s.queue := rfl
@[simp] theorem State.setPressure_journal (x : Pressure) : (s.setPressure x).journal = s.journal := rfl
@[simp] theorem State.setPressure_patrol (x : Pressure) : (s.setPressure x).patrol = s.patrol := rfl
@[simp] theorem State.setPressure_suspects (x : Pressure) : (s.setPressure x).suspects = s.suspects := rfl
@[simp] theorem State.setPressure_pressure (x : Pressure) : (s.setPressure x).pressure = x := rfl
@[simp] theorem State.setPressure_sign (x : Pressure) : (s.setPressure x).sign = s.sign := rfl
@[simp] theorem State.setPressure_lane (x : Pressure) : (s.setPressure x).lane = s.lane := rfl
@[simp] theorem State.setPressure_ports (x : Pressure) : (s.setPressure x).ports = s.ports := rfl
@[simp] theorem State.setPressure_array (x : Pressure) : (s.setPressure x).array = s.array := rfl
@[simp] theorem State.setPressure_ctl (x : Pressure) : (s.setPressure x).ctl = s.ctl := rfl
@[simp] theorem State.setPressure_ckpt (x : Pressure) : (s.setPressure x).ckpt = s.ckpt := rfl
@[simp] theorem State.setPressure_rest (x : Pressure) : (s.setPressure x).rest = s.rest := rfl
@[simp] theorem State.setPressure_xfer (x : Pressure) : (s.setPressure x).xfer = s.xfer := rfl
@[simp] theorem State.setPressure_faults (x : Pressure) : (s.setPressure x).faults = s.faults := rfl
@[simp] theorem State.setPressure_comm (x : Pressure) : (s.setPressure x).comm = s.comm := rfl
@[simp] theorem State.setPressure_pins (x : Pressure) : (s.setPressure x).pins = s.pins := rfl
@[simp] theorem State.setPressure_notes (x : Pressure) : (s.setPressure x).notes = s.notes := rfl
@[simp] theorem State.setSign_phase (x : SignUnit) : (s.setSign x).phase = s.phase := rfl
@[simp] theorem State.setSign_lrst (x : SignUnit) : (s.setSign x).lrst = s.lrst := rfl
@[simp] theorem State.setSign_powerOns (x : SignUnit) : (s.setSign x).powerOns = s.powerOns := rfl
@[simp] theorem State.setSign_free (x : SignUnit) : (s.setSign x).free = s.free := rfl
@[simp] theorem State.setSign_pending (x : SignUnit) : (s.setSign x).pending = s.pending := rfl
@[simp] theorem State.setSign_image (x : SignUnit) : (s.setSign x).image = s.image := rfl
@[simp] theorem State.setSign_pages (x : SignUnit) : (s.setSign x).pages = s.pages := rfl
@[simp] theorem State.setSign_hostGrants (x : SignUnit) : (s.setSign x).hostGrants = s.hostGrants := rfl
@[simp] theorem State.setSign_link (x : SignUnit) : (s.setSign x).link = s.link := rfl
@[simp] theorem State.setSign_queue (x : SignUnit) : (s.setSign x).queue = s.queue := rfl
@[simp] theorem State.setSign_journal (x : SignUnit) : (s.setSign x).journal = s.journal := rfl
@[simp] theorem State.setSign_patrol (x : SignUnit) : (s.setSign x).patrol = s.patrol := rfl
@[simp] theorem State.setSign_suspects (x : SignUnit) : (s.setSign x).suspects = s.suspects := rfl
@[simp] theorem State.setSign_pressure (x : SignUnit) : (s.setSign x).pressure = s.pressure := rfl
@[simp] theorem State.setSign_sign (x : SignUnit) : (s.setSign x).sign = x := rfl
@[simp] theorem State.setSign_lane (x : SignUnit) : (s.setSign x).lane = s.lane := rfl
@[simp] theorem State.setSign_ports (x : SignUnit) : (s.setSign x).ports = s.ports := rfl
@[simp] theorem State.setSign_array (x : SignUnit) : (s.setSign x).array = s.array := rfl
@[simp] theorem State.setSign_ctl (x : SignUnit) : (s.setSign x).ctl = s.ctl := rfl
@[simp] theorem State.setSign_ckpt (x : SignUnit) : (s.setSign x).ckpt = s.ckpt := rfl
@[simp] theorem State.setSign_rest (x : SignUnit) : (s.setSign x).rest = s.rest := rfl
@[simp] theorem State.setSign_xfer (x : SignUnit) : (s.setSign x).xfer = s.xfer := rfl
@[simp] theorem State.setSign_faults (x : SignUnit) : (s.setSign x).faults = s.faults := rfl
@[simp] theorem State.setSign_comm (x : SignUnit) : (s.setSign x).comm = s.comm := rfl
@[simp] theorem State.setSign_pins (x : SignUnit) : (s.setSign x).pins = s.pins := rfl
@[simp] theorem State.setSign_notes (x : SignUnit) : (s.setSign x).notes = s.notes := rfl
@[simp] theorem State.setLane_phase (x : LaneUnit) : (s.setLane x).phase = s.phase := rfl
@[simp] theorem State.setLane_lrst (x : LaneUnit) : (s.setLane x).lrst = s.lrst := rfl
@[simp] theorem State.setLane_powerOns (x : LaneUnit) : (s.setLane x).powerOns = s.powerOns := rfl
@[simp] theorem State.setLane_free (x : LaneUnit) : (s.setLane x).free = s.free := rfl
@[simp] theorem State.setLane_pending (x : LaneUnit) : (s.setLane x).pending = s.pending := rfl
@[simp] theorem State.setLane_image (x : LaneUnit) : (s.setLane x).image = s.image := rfl
@[simp] theorem State.setLane_pages (x : LaneUnit) : (s.setLane x).pages = s.pages := rfl
@[simp] theorem State.setLane_hostGrants (x : LaneUnit) : (s.setLane x).hostGrants = s.hostGrants := rfl
@[simp] theorem State.setLane_link (x : LaneUnit) : (s.setLane x).link = s.link := rfl
@[simp] theorem State.setLane_queue (x : LaneUnit) : (s.setLane x).queue = s.queue := rfl
@[simp] theorem State.setLane_journal (x : LaneUnit) : (s.setLane x).journal = s.journal := rfl
@[simp] theorem State.setLane_patrol (x : LaneUnit) : (s.setLane x).patrol = s.patrol := rfl
@[simp] theorem State.setLane_suspects (x : LaneUnit) : (s.setLane x).suspects = s.suspects := rfl
@[simp] theorem State.setLane_pressure (x : LaneUnit) : (s.setLane x).pressure = s.pressure := rfl
@[simp] theorem State.setLane_sign (x : LaneUnit) : (s.setLane x).sign = s.sign := rfl
@[simp] theorem State.setLane_lane (x : LaneUnit) : (s.setLane x).lane = x := rfl
@[simp] theorem State.setLane_ports (x : LaneUnit) : (s.setLane x).ports = s.ports := rfl
@[simp] theorem State.setLane_array (x : LaneUnit) : (s.setLane x).array = s.array := rfl
@[simp] theorem State.setLane_ctl (x : LaneUnit) : (s.setLane x).ctl = s.ctl := rfl
@[simp] theorem State.setLane_ckpt (x : LaneUnit) : (s.setLane x).ckpt = s.ckpt := rfl
@[simp] theorem State.setLane_rest (x : LaneUnit) : (s.setLane x).rest = s.rest := rfl
@[simp] theorem State.setLane_xfer (x : LaneUnit) : (s.setLane x).xfer = s.xfer := rfl
@[simp] theorem State.setLane_faults (x : LaneUnit) : (s.setLane x).faults = s.faults := rfl
@[simp] theorem State.setLane_comm (x : LaneUnit) : (s.setLane x).comm = s.comm := rfl
@[simp] theorem State.setLane_pins (x : LaneUnit) : (s.setLane x).pins = s.pins := rfl
@[simp] theorem State.setLane_notes (x : LaneUnit) : (s.setLane x).notes = s.notes := rfl
@[simp] theorem State.setPorts_phase (x : Ports) : (s.setPorts x).phase = s.phase := rfl
@[simp] theorem State.setPorts_lrst (x : Ports) : (s.setPorts x).lrst = s.lrst := rfl
@[simp] theorem State.setPorts_powerOns (x : Ports) : (s.setPorts x).powerOns = s.powerOns := rfl
@[simp] theorem State.setPorts_free (x : Ports) : (s.setPorts x).free = s.free := rfl
@[simp] theorem State.setPorts_pending (x : Ports) : (s.setPorts x).pending = s.pending := rfl
@[simp] theorem State.setPorts_image (x : Ports) : (s.setPorts x).image = s.image := rfl
@[simp] theorem State.setPorts_pages (x : Ports) : (s.setPorts x).pages = s.pages := rfl
@[simp] theorem State.setPorts_hostGrants (x : Ports) : (s.setPorts x).hostGrants = s.hostGrants := rfl
@[simp] theorem State.setPorts_link (x : Ports) : (s.setPorts x).link = s.link := rfl
@[simp] theorem State.setPorts_queue (x : Ports) : (s.setPorts x).queue = s.queue := rfl
@[simp] theorem State.setPorts_journal (x : Ports) : (s.setPorts x).journal = s.journal := rfl
@[simp] theorem State.setPorts_patrol (x : Ports) : (s.setPorts x).patrol = s.patrol := rfl
@[simp] theorem State.setPorts_suspects (x : Ports) : (s.setPorts x).suspects = s.suspects := rfl
@[simp] theorem State.setPorts_pressure (x : Ports) : (s.setPorts x).pressure = s.pressure := rfl
@[simp] theorem State.setPorts_sign (x : Ports) : (s.setPorts x).sign = s.sign := rfl
@[simp] theorem State.setPorts_lane (x : Ports) : (s.setPorts x).lane = s.lane := rfl
@[simp] theorem State.setPorts_ports (x : Ports) : (s.setPorts x).ports = x := rfl
@[simp] theorem State.setPorts_array (x : Ports) : (s.setPorts x).array = s.array := rfl
@[simp] theorem State.setPorts_ctl (x : Ports) : (s.setPorts x).ctl = s.ctl := rfl
@[simp] theorem State.setPorts_ckpt (x : Ports) : (s.setPorts x).ckpt = s.ckpt := rfl
@[simp] theorem State.setPorts_rest (x : Ports) : (s.setPorts x).rest = s.rest := rfl
@[simp] theorem State.setPorts_xfer (x : Ports) : (s.setPorts x).xfer = s.xfer := rfl
@[simp] theorem State.setPorts_faults (x : Ports) : (s.setPorts x).faults = s.faults := rfl
@[simp] theorem State.setPorts_comm (x : Ports) : (s.setPorts x).comm = s.comm := rfl
@[simp] theorem State.setPorts_pins (x : Ports) : (s.setPorts x).pins = s.pins := rfl
@[simp] theorem State.setPorts_notes (x : Ports) : (s.setPorts x).notes = s.notes := rfl
@[simp] theorem State.setArray_phase (x : RetArray) : (s.setArray x).phase = s.phase := rfl
@[simp] theorem State.setArray_lrst (x : RetArray) : (s.setArray x).lrst = s.lrst := rfl
@[simp] theorem State.setArray_powerOns (x : RetArray) : (s.setArray x).powerOns = s.powerOns := rfl
@[simp] theorem State.setArray_free (x : RetArray) : (s.setArray x).free = s.free := rfl
@[simp] theorem State.setArray_pending (x : RetArray) : (s.setArray x).pending = s.pending := rfl
@[simp] theorem State.setArray_image (x : RetArray) : (s.setArray x).image = s.image := rfl
@[simp] theorem State.setArray_pages (x : RetArray) : (s.setArray x).pages = s.pages := rfl
@[simp] theorem State.setArray_hostGrants (x : RetArray) : (s.setArray x).hostGrants = s.hostGrants := rfl
@[simp] theorem State.setArray_link (x : RetArray) : (s.setArray x).link = s.link := rfl
@[simp] theorem State.setArray_queue (x : RetArray) : (s.setArray x).queue = s.queue := rfl
@[simp] theorem State.setArray_journal (x : RetArray) : (s.setArray x).journal = s.journal := rfl
@[simp] theorem State.setArray_patrol (x : RetArray) : (s.setArray x).patrol = s.patrol := rfl
@[simp] theorem State.setArray_suspects (x : RetArray) : (s.setArray x).suspects = s.suspects := rfl
@[simp] theorem State.setArray_pressure (x : RetArray) : (s.setArray x).pressure = s.pressure := rfl
@[simp] theorem State.setArray_sign (x : RetArray) : (s.setArray x).sign = s.sign := rfl
@[simp] theorem State.setArray_lane (x : RetArray) : (s.setArray x).lane = s.lane := rfl
@[simp] theorem State.setArray_ports (x : RetArray) : (s.setArray x).ports = s.ports := rfl
@[simp] theorem State.setArray_array (x : RetArray) : (s.setArray x).array = x := rfl
@[simp] theorem State.setArray_ctl (x : RetArray) : (s.setArray x).ctl = s.ctl := rfl
@[simp] theorem State.setArray_ckpt (x : RetArray) : (s.setArray x).ckpt = s.ckpt := rfl
@[simp] theorem State.setArray_rest (x : RetArray) : (s.setArray x).rest = s.rest := rfl
@[simp] theorem State.setArray_xfer (x : RetArray) : (s.setArray x).xfer = s.xfer := rfl
@[simp] theorem State.setArray_faults (x : RetArray) : (s.setArray x).faults = s.faults := rfl
@[simp] theorem State.setArray_comm (x : RetArray) : (s.setArray x).comm = s.comm := rfl
@[simp] theorem State.setArray_pins (x : RetArray) : (s.setArray x).pins = s.pins := rfl
@[simp] theorem State.setArray_notes (x : RetArray) : (s.setArray x).notes = s.notes := rfl
@[simp] theorem State.setCtl_phase (x : Controller) : (s.setCtl x).phase = s.phase := rfl
@[simp] theorem State.setCtl_lrst (x : Controller) : (s.setCtl x).lrst = s.lrst := rfl
@[simp] theorem State.setCtl_powerOns (x : Controller) : (s.setCtl x).powerOns = s.powerOns := rfl
@[simp] theorem State.setCtl_free (x : Controller) : (s.setCtl x).free = s.free := rfl
@[simp] theorem State.setCtl_pending (x : Controller) : (s.setCtl x).pending = s.pending := rfl
@[simp] theorem State.setCtl_image (x : Controller) : (s.setCtl x).image = s.image := rfl
@[simp] theorem State.setCtl_pages (x : Controller) : (s.setCtl x).pages = s.pages := rfl
@[simp] theorem State.setCtl_hostGrants (x : Controller) : (s.setCtl x).hostGrants = s.hostGrants := rfl
@[simp] theorem State.setCtl_link (x : Controller) : (s.setCtl x).link = s.link := rfl
@[simp] theorem State.setCtl_queue (x : Controller) : (s.setCtl x).queue = s.queue := rfl
@[simp] theorem State.setCtl_journal (x : Controller) : (s.setCtl x).journal = s.journal := rfl
@[simp] theorem State.setCtl_patrol (x : Controller) : (s.setCtl x).patrol = s.patrol := rfl
@[simp] theorem State.setCtl_suspects (x : Controller) : (s.setCtl x).suspects = s.suspects := rfl
@[simp] theorem State.setCtl_pressure (x : Controller) : (s.setCtl x).pressure = s.pressure := rfl
@[simp] theorem State.setCtl_sign (x : Controller) : (s.setCtl x).sign = s.sign := rfl
@[simp] theorem State.setCtl_lane (x : Controller) : (s.setCtl x).lane = s.lane := rfl
@[simp] theorem State.setCtl_ports (x : Controller) : (s.setCtl x).ports = s.ports := rfl
@[simp] theorem State.setCtl_array (x : Controller) : (s.setCtl x).array = s.array := rfl
@[simp] theorem State.setCtl_ctl (x : Controller) : (s.setCtl x).ctl = x := rfl
@[simp] theorem State.setCtl_ckpt (x : Controller) : (s.setCtl x).ckpt = s.ckpt := rfl
@[simp] theorem State.setCtl_rest (x : Controller) : (s.setCtl x).rest = s.rest := rfl
@[simp] theorem State.setCtl_xfer (x : Controller) : (s.setCtl x).xfer = s.xfer := rfl
@[simp] theorem State.setCtl_faults (x : Controller) : (s.setCtl x).faults = s.faults := rfl
@[simp] theorem State.setCtl_comm (x : Controller) : (s.setCtl x).comm = s.comm := rfl
@[simp] theorem State.setCtl_pins (x : Controller) : (s.setCtl x).pins = s.pins := rfl
@[simp] theorem State.setCtl_notes (x : Controller) : (s.setCtl x).notes = s.notes := rfl
@[simp] theorem State.setCkpt_phase (x : Checkpoint) : (s.setCkpt x).phase = s.phase := rfl
@[simp] theorem State.setCkpt_lrst (x : Checkpoint) : (s.setCkpt x).lrst = s.lrst := rfl
@[simp] theorem State.setCkpt_powerOns (x : Checkpoint) : (s.setCkpt x).powerOns = s.powerOns := rfl
@[simp] theorem State.setCkpt_free (x : Checkpoint) : (s.setCkpt x).free = s.free := rfl
@[simp] theorem State.setCkpt_pending (x : Checkpoint) : (s.setCkpt x).pending = s.pending := rfl
@[simp] theorem State.setCkpt_image (x : Checkpoint) : (s.setCkpt x).image = s.image := rfl
@[simp] theorem State.setCkpt_pages (x : Checkpoint) : (s.setCkpt x).pages = s.pages := rfl
@[simp] theorem State.setCkpt_hostGrants (x : Checkpoint) : (s.setCkpt x).hostGrants = s.hostGrants := rfl
@[simp] theorem State.setCkpt_link (x : Checkpoint) : (s.setCkpt x).link = s.link := rfl
@[simp] theorem State.setCkpt_queue (x : Checkpoint) : (s.setCkpt x).queue = s.queue := rfl
@[simp] theorem State.setCkpt_journal (x : Checkpoint) : (s.setCkpt x).journal = s.journal := rfl
@[simp] theorem State.setCkpt_patrol (x : Checkpoint) : (s.setCkpt x).patrol = s.patrol := rfl
@[simp] theorem State.setCkpt_suspects (x : Checkpoint) : (s.setCkpt x).suspects = s.suspects := rfl
@[simp] theorem State.setCkpt_pressure (x : Checkpoint) : (s.setCkpt x).pressure = s.pressure := rfl
@[simp] theorem State.setCkpt_sign (x : Checkpoint) : (s.setCkpt x).sign = s.sign := rfl
@[simp] theorem State.setCkpt_lane (x : Checkpoint) : (s.setCkpt x).lane = s.lane := rfl
@[simp] theorem State.setCkpt_ports (x : Checkpoint) : (s.setCkpt x).ports = s.ports := rfl
@[simp] theorem State.setCkpt_array (x : Checkpoint) : (s.setCkpt x).array = s.array := rfl
@[simp] theorem State.setCkpt_ctl (x : Checkpoint) : (s.setCkpt x).ctl = s.ctl := rfl
@[simp] theorem State.setCkpt_ckpt (x : Checkpoint) : (s.setCkpt x).ckpt = x := rfl
@[simp] theorem State.setCkpt_rest (x : Checkpoint) : (s.setCkpt x).rest = s.rest := rfl
@[simp] theorem State.setCkpt_xfer (x : Checkpoint) : (s.setCkpt x).xfer = s.xfer := rfl
@[simp] theorem State.setCkpt_faults (x : Checkpoint) : (s.setCkpt x).faults = s.faults := rfl
@[simp] theorem State.setCkpt_comm (x : Checkpoint) : (s.setCkpt x).comm = s.comm := rfl
@[simp] theorem State.setCkpt_pins (x : Checkpoint) : (s.setCkpt x).pins = s.pins := rfl
@[simp] theorem State.setCkpt_notes (x : Checkpoint) : (s.setCkpt x).notes = s.notes := rfl
@[simp] theorem State.setRest_phase (x : Restore) : (s.setRest x).phase = s.phase := rfl
@[simp] theorem State.setRest_lrst (x : Restore) : (s.setRest x).lrst = s.lrst := rfl
@[simp] theorem State.setRest_powerOns (x : Restore) : (s.setRest x).powerOns = s.powerOns := rfl
@[simp] theorem State.setRest_free (x : Restore) : (s.setRest x).free = s.free := rfl
@[simp] theorem State.setRest_pending (x : Restore) : (s.setRest x).pending = s.pending := rfl
@[simp] theorem State.setRest_image (x : Restore) : (s.setRest x).image = s.image := rfl
@[simp] theorem State.setRest_pages (x : Restore) : (s.setRest x).pages = s.pages := rfl
@[simp] theorem State.setRest_hostGrants (x : Restore) : (s.setRest x).hostGrants = s.hostGrants := rfl
@[simp] theorem State.setRest_link (x : Restore) : (s.setRest x).link = s.link := rfl
@[simp] theorem State.setRest_queue (x : Restore) : (s.setRest x).queue = s.queue := rfl
@[simp] theorem State.setRest_journal (x : Restore) : (s.setRest x).journal = s.journal := rfl
@[simp] theorem State.setRest_patrol (x : Restore) : (s.setRest x).patrol = s.patrol := rfl
@[simp] theorem State.setRest_suspects (x : Restore) : (s.setRest x).suspects = s.suspects := rfl
@[simp] theorem State.setRest_pressure (x : Restore) : (s.setRest x).pressure = s.pressure := rfl
@[simp] theorem State.setRest_sign (x : Restore) : (s.setRest x).sign = s.sign := rfl
@[simp] theorem State.setRest_lane (x : Restore) : (s.setRest x).lane = s.lane := rfl
@[simp] theorem State.setRest_ports (x : Restore) : (s.setRest x).ports = s.ports := rfl
@[simp] theorem State.setRest_array (x : Restore) : (s.setRest x).array = s.array := rfl
@[simp] theorem State.setRest_ctl (x : Restore) : (s.setRest x).ctl = s.ctl := rfl
@[simp] theorem State.setRest_ckpt (x : Restore) : (s.setRest x).ckpt = s.ckpt := rfl
@[simp] theorem State.setRest_rest (x : Restore) : (s.setRest x).rest = x := rfl
@[simp] theorem State.setRest_xfer (x : Restore) : (s.setRest x).xfer = s.xfer := rfl
@[simp] theorem State.setRest_faults (x : Restore) : (s.setRest x).faults = s.faults := rfl
@[simp] theorem State.setRest_comm (x : Restore) : (s.setRest x).comm = s.comm := rfl
@[simp] theorem State.setRest_pins (x : Restore) : (s.setRest x).pins = s.pins := rfl
@[simp] theorem State.setRest_notes (x : Restore) : (s.setRest x).notes = s.notes := rfl
@[simp] theorem State.setXfer_phase (x : Transfer) : (s.setXfer x).phase = s.phase := rfl
@[simp] theorem State.setXfer_lrst (x : Transfer) : (s.setXfer x).lrst = s.lrst := rfl
@[simp] theorem State.setXfer_powerOns (x : Transfer) : (s.setXfer x).powerOns = s.powerOns := rfl
@[simp] theorem State.setXfer_free (x : Transfer) : (s.setXfer x).free = s.free := rfl
@[simp] theorem State.setXfer_pending (x : Transfer) : (s.setXfer x).pending = s.pending := rfl
@[simp] theorem State.setXfer_image (x : Transfer) : (s.setXfer x).image = s.image := rfl
@[simp] theorem State.setXfer_pages (x : Transfer) : (s.setXfer x).pages = s.pages := rfl
@[simp] theorem State.setXfer_hostGrants (x : Transfer) : (s.setXfer x).hostGrants = s.hostGrants := rfl
@[simp] theorem State.setXfer_link (x : Transfer) : (s.setXfer x).link = s.link := rfl
@[simp] theorem State.setXfer_queue (x : Transfer) : (s.setXfer x).queue = s.queue := rfl
@[simp] theorem State.setXfer_journal (x : Transfer) : (s.setXfer x).journal = s.journal := rfl
@[simp] theorem State.setXfer_patrol (x : Transfer) : (s.setXfer x).patrol = s.patrol := rfl
@[simp] theorem State.setXfer_suspects (x : Transfer) : (s.setXfer x).suspects = s.suspects := rfl
@[simp] theorem State.setXfer_pressure (x : Transfer) : (s.setXfer x).pressure = s.pressure := rfl
@[simp] theorem State.setXfer_sign (x : Transfer) : (s.setXfer x).sign = s.sign := rfl
@[simp] theorem State.setXfer_lane (x : Transfer) : (s.setXfer x).lane = s.lane := rfl
@[simp] theorem State.setXfer_ports (x : Transfer) : (s.setXfer x).ports = s.ports := rfl
@[simp] theorem State.setXfer_array (x : Transfer) : (s.setXfer x).array = s.array := rfl
@[simp] theorem State.setXfer_ctl (x : Transfer) : (s.setXfer x).ctl = s.ctl := rfl
@[simp] theorem State.setXfer_ckpt (x : Transfer) : (s.setXfer x).ckpt = s.ckpt := rfl
@[simp] theorem State.setXfer_rest (x : Transfer) : (s.setXfer x).rest = s.rest := rfl
@[simp] theorem State.setXfer_xfer (x : Transfer) : (s.setXfer x).xfer = x := rfl
@[simp] theorem State.setXfer_faults (x : Transfer) : (s.setXfer x).faults = s.faults := rfl
@[simp] theorem State.setXfer_comm (x : Transfer) : (s.setXfer x).comm = s.comm := rfl
@[simp] theorem State.setXfer_pins (x : Transfer) : (s.setXfer x).pins = s.pins := rfl
@[simp] theorem State.setXfer_notes (x : Transfer) : (s.setXfer x).notes = s.notes := rfl
@[simp] theorem State.setFaults_phase (x : FaultStore) : (s.setFaults x).phase = s.phase := rfl
@[simp] theorem State.setFaults_lrst (x : FaultStore) : (s.setFaults x).lrst = s.lrst := rfl
@[simp] theorem State.setFaults_powerOns (x : FaultStore) : (s.setFaults x).powerOns = s.powerOns := rfl
@[simp] theorem State.setFaults_free (x : FaultStore) : (s.setFaults x).free = s.free := rfl
@[simp] theorem State.setFaults_pending (x : FaultStore) : (s.setFaults x).pending = s.pending := rfl
@[simp] theorem State.setFaults_image (x : FaultStore) : (s.setFaults x).image = s.image := rfl
@[simp] theorem State.setFaults_pages (x : FaultStore) : (s.setFaults x).pages = s.pages := rfl
@[simp] theorem State.setFaults_hostGrants (x : FaultStore) : (s.setFaults x).hostGrants = s.hostGrants := rfl
@[simp] theorem State.setFaults_link (x : FaultStore) : (s.setFaults x).link = s.link := rfl
@[simp] theorem State.setFaults_queue (x : FaultStore) : (s.setFaults x).queue = s.queue := rfl
@[simp] theorem State.setFaults_journal (x : FaultStore) : (s.setFaults x).journal = s.journal := rfl
@[simp] theorem State.setFaults_patrol (x : FaultStore) : (s.setFaults x).patrol = s.patrol := rfl
@[simp] theorem State.setFaults_suspects (x : FaultStore) : (s.setFaults x).suspects = s.suspects := rfl
@[simp] theorem State.setFaults_pressure (x : FaultStore) : (s.setFaults x).pressure = s.pressure := rfl
@[simp] theorem State.setFaults_sign (x : FaultStore) : (s.setFaults x).sign = s.sign := rfl
@[simp] theorem State.setFaults_lane (x : FaultStore) : (s.setFaults x).lane = s.lane := rfl
@[simp] theorem State.setFaults_ports (x : FaultStore) : (s.setFaults x).ports = s.ports := rfl
@[simp] theorem State.setFaults_array (x : FaultStore) : (s.setFaults x).array = s.array := rfl
@[simp] theorem State.setFaults_ctl (x : FaultStore) : (s.setFaults x).ctl = s.ctl := rfl
@[simp] theorem State.setFaults_ckpt (x : FaultStore) : (s.setFaults x).ckpt = s.ckpt := rfl
@[simp] theorem State.setFaults_rest (x : FaultStore) : (s.setFaults x).rest = s.rest := rfl
@[simp] theorem State.setFaults_xfer (x : FaultStore) : (s.setFaults x).xfer = s.xfer := rfl
@[simp] theorem State.setFaults_faults (x : FaultStore) : (s.setFaults x).faults = x := rfl
@[simp] theorem State.setFaults_comm (x : FaultStore) : (s.setFaults x).comm = s.comm := rfl
@[simp] theorem State.setFaults_pins (x : FaultStore) : (s.setFaults x).pins = s.pins := rfl
@[simp] theorem State.setFaults_notes (x : FaultStore) : (s.setFaults x).notes = s.notes := rfl
@[simp] theorem State.setComm_phase (x : Commissioning) : (s.setComm x).phase = s.phase := rfl
@[simp] theorem State.setComm_lrst (x : Commissioning) : (s.setComm x).lrst = s.lrst := rfl
@[simp] theorem State.setComm_powerOns (x : Commissioning) : (s.setComm x).powerOns = s.powerOns := rfl
@[simp] theorem State.setComm_free (x : Commissioning) : (s.setComm x).free = s.free := rfl
@[simp] theorem State.setComm_pending (x : Commissioning) : (s.setComm x).pending = s.pending := rfl
@[simp] theorem State.setComm_image (x : Commissioning) : (s.setComm x).image = s.image := rfl
@[simp] theorem State.setComm_pages (x : Commissioning) : (s.setComm x).pages = s.pages := rfl
@[simp] theorem State.setComm_hostGrants (x : Commissioning) : (s.setComm x).hostGrants = s.hostGrants := rfl
@[simp] theorem State.setComm_link (x : Commissioning) : (s.setComm x).link = s.link := rfl
@[simp] theorem State.setComm_queue (x : Commissioning) : (s.setComm x).queue = s.queue := rfl
@[simp] theorem State.setComm_journal (x : Commissioning) : (s.setComm x).journal = s.journal := rfl
@[simp] theorem State.setComm_patrol (x : Commissioning) : (s.setComm x).patrol = s.patrol := rfl
@[simp] theorem State.setComm_suspects (x : Commissioning) : (s.setComm x).suspects = s.suspects := rfl
@[simp] theorem State.setComm_pressure (x : Commissioning) : (s.setComm x).pressure = s.pressure := rfl
@[simp] theorem State.setComm_sign (x : Commissioning) : (s.setComm x).sign = s.sign := rfl
@[simp] theorem State.setComm_lane (x : Commissioning) : (s.setComm x).lane = s.lane := rfl
@[simp] theorem State.setComm_ports (x : Commissioning) : (s.setComm x).ports = s.ports := rfl
@[simp] theorem State.setComm_array (x : Commissioning) : (s.setComm x).array = s.array := rfl
@[simp] theorem State.setComm_ctl (x : Commissioning) : (s.setComm x).ctl = s.ctl := rfl
@[simp] theorem State.setComm_ckpt (x : Commissioning) : (s.setComm x).ckpt = s.ckpt := rfl
@[simp] theorem State.setComm_rest (x : Commissioning) : (s.setComm x).rest = s.rest := rfl
@[simp] theorem State.setComm_xfer (x : Commissioning) : (s.setComm x).xfer = s.xfer := rfl
@[simp] theorem State.setComm_faults (x : Commissioning) : (s.setComm x).faults = s.faults := rfl
@[simp] theorem State.setComm_comm (x : Commissioning) : (s.setComm x).comm = x := rfl
@[simp] theorem State.setComm_pins (x : Commissioning) : (s.setComm x).pins = s.pins := rfl
@[simp] theorem State.setComm_notes (x : Commissioning) : (s.setComm x).notes = s.notes := rfl
@[simp] theorem State.setPins_phase (x : Pins) : (s.setPins x).phase = s.phase := rfl
@[simp] theorem State.setPins_lrst (x : Pins) : (s.setPins x).lrst = s.lrst := rfl
@[simp] theorem State.setPins_powerOns (x : Pins) : (s.setPins x).powerOns = s.powerOns := rfl
@[simp] theorem State.setPins_free (x : Pins) : (s.setPins x).free = s.free := rfl
@[simp] theorem State.setPins_pending (x : Pins) : (s.setPins x).pending = s.pending := rfl
@[simp] theorem State.setPins_image (x : Pins) : (s.setPins x).image = s.image := rfl
@[simp] theorem State.setPins_pages (x : Pins) : (s.setPins x).pages = s.pages := rfl
@[simp] theorem State.setPins_hostGrants (x : Pins) : (s.setPins x).hostGrants = s.hostGrants := rfl
@[simp] theorem State.setPins_link (x : Pins) : (s.setPins x).link = s.link := rfl
@[simp] theorem State.setPins_queue (x : Pins) : (s.setPins x).queue = s.queue := rfl
@[simp] theorem State.setPins_journal (x : Pins) : (s.setPins x).journal = s.journal := rfl
@[simp] theorem State.setPins_patrol (x : Pins) : (s.setPins x).patrol = s.patrol := rfl
@[simp] theorem State.setPins_suspects (x : Pins) : (s.setPins x).suspects = s.suspects := rfl
@[simp] theorem State.setPins_pressure (x : Pins) : (s.setPins x).pressure = s.pressure := rfl
@[simp] theorem State.setPins_sign (x : Pins) : (s.setPins x).sign = s.sign := rfl
@[simp] theorem State.setPins_lane (x : Pins) : (s.setPins x).lane = s.lane := rfl
@[simp] theorem State.setPins_ports (x : Pins) : (s.setPins x).ports = s.ports := rfl
@[simp] theorem State.setPins_array (x : Pins) : (s.setPins x).array = s.array := rfl
@[simp] theorem State.setPins_ctl (x : Pins) : (s.setPins x).ctl = s.ctl := rfl
@[simp] theorem State.setPins_ckpt (x : Pins) : (s.setPins x).ckpt = s.ckpt := rfl
@[simp] theorem State.setPins_rest (x : Pins) : (s.setPins x).rest = s.rest := rfl
@[simp] theorem State.setPins_xfer (x : Pins) : (s.setPins x).xfer = s.xfer := rfl
@[simp] theorem State.setPins_faults (x : Pins) : (s.setPins x).faults = s.faults := rfl
@[simp] theorem State.setPins_comm (x : Pins) : (s.setPins x).comm = s.comm := rfl
@[simp] theorem State.setPins_pins (x : Pins) : (s.setPins x).pins = x := rfl
@[simp] theorem State.setPins_notes (x : Pins) : (s.setPins x).notes = s.notes := rfl
@[simp] theorem State.setNotes_phase (x : Notes) : (s.setNotes x).phase = s.phase := rfl
@[simp] theorem State.setNotes_lrst (x : Notes) : (s.setNotes x).lrst = s.lrst := rfl
@[simp] theorem State.setNotes_powerOns (x : Notes) : (s.setNotes x).powerOns = s.powerOns := rfl
@[simp] theorem State.setNotes_free (x : Notes) : (s.setNotes x).free = s.free := rfl
@[simp] theorem State.setNotes_pending (x : Notes) : (s.setNotes x).pending = s.pending := rfl
@[simp] theorem State.setNotes_image (x : Notes) : (s.setNotes x).image = s.image := rfl
@[simp] theorem State.setNotes_pages (x : Notes) : (s.setNotes x).pages = s.pages := rfl
@[simp] theorem State.setNotes_hostGrants (x : Notes) : (s.setNotes x).hostGrants = s.hostGrants := rfl
@[simp] theorem State.setNotes_link (x : Notes) : (s.setNotes x).link = s.link := rfl
@[simp] theorem State.setNotes_queue (x : Notes) : (s.setNotes x).queue = s.queue := rfl
@[simp] theorem State.setNotes_journal (x : Notes) : (s.setNotes x).journal = s.journal := rfl
@[simp] theorem State.setNotes_patrol (x : Notes) : (s.setNotes x).patrol = s.patrol := rfl
@[simp] theorem State.setNotes_suspects (x : Notes) : (s.setNotes x).suspects = s.suspects := rfl
@[simp] theorem State.setNotes_pressure (x : Notes) : (s.setNotes x).pressure = s.pressure := rfl
@[simp] theorem State.setNotes_sign (x : Notes) : (s.setNotes x).sign = s.sign := rfl
@[simp] theorem State.setNotes_lane (x : Notes) : (s.setNotes x).lane = s.lane := rfl
@[simp] theorem State.setNotes_ports (x : Notes) : (s.setNotes x).ports = s.ports := rfl
@[simp] theorem State.setNotes_array (x : Notes) : (s.setNotes x).array = s.array := rfl
@[simp] theorem State.setNotes_ctl (x : Notes) : (s.setNotes x).ctl = s.ctl := rfl
@[simp] theorem State.setNotes_ckpt (x : Notes) : (s.setNotes x).ckpt = s.ckpt := rfl
@[simp] theorem State.setNotes_rest (x : Notes) : (s.setNotes x).rest = s.rest := rfl
@[simp] theorem State.setNotes_xfer (x : Notes) : (s.setNotes x).xfer = s.xfer := rfl
@[simp] theorem State.setNotes_faults (x : Notes) : (s.setNotes x).faults = s.faults := rfl
@[simp] theorem State.setNotes_comm (x : Notes) : (s.setNotes x).comm = s.comm := rfl
@[simp] theorem State.setNotes_pins (x : Notes) : (s.setNotes x).pins = s.pins := rfl
@[simp] theorem State.setNotes_notes (x : Notes) : (s.setNotes x).notes = x := rfl

end Sys2Proof.Machine
end

