-- ==== Sys2Proof/Laws/Events.lean ====
section
/-! SUPPORT. What the shared ends of an event can do: the blocks settle, the reply is built, the output lines are driven. -/

namespace Sys2Proof.Machine

/-! ### The output lines -/

/-- Lines that already follow their conditions stay as they are. -/
theorem drivePins_of_lines {s : State} (h : s.linesTrue) : s.drivePins = s := by
  obtain ⟨h1, h2, h3, h4⟩ := h
  have e : (⟨decide (s.phase = .running), s.alertCond, s.permitCond, s.permitCond && (s.pins.permitHigh || !s.pins.permit)⟩ : Pins) = s.pins := by
    rw [← h1, ← h2, ← h3]
    cases hp : s.pins with
    | mk a b c d =>
      simp only [hp] at h4
      cases c <;> cases d <;> simp_all
  unfold State.drivePins State.setPins
  rw [e]

/-- Driving the lines twice does what driving them once does, and makes them true. -/
theorem drivePins_lines (s : State) : s.drivePins.linesTrue := by
  refine ⟨rfl, rfl, rfl, ?_⟩
  simp only [State.drivePins, State.setPins_pins]
  intro h
  exact (Bool.and_eq_true_iff.mp h).1

/-! ### The end of an event -/

/-- The notes of a quiet state are clear. -/
theorem State.quiet.notes_eq {s : State} (h : s.quiet) : s.notes = { moved := false, withdrawn := false } := by
  obtain ⟨-, h2, h3⟩ := h
  cases hn : s.notes with
  | mk a b => simp_all

/-- The end of an event that owes nothing and answers nothing. -/
theorem closeEvent_of_quiet {s : State} (h : s.quiet) : s.closeEvent = s.drivePins := by
  have hn := h.notes_eq
  have hs : s.setNotes { moved := false, withdrawn := false } = s := by
    rw [← hn]; rfl
  obtain ⟨h1, h2, h3⟩ := h
  simp [State.closeEvent, State.frameOwed, State.buildReply, State.tellState, h1, h2, h3, hs]

/-- The end of an event that answers a request and owes nothing else. -/
theorem closeEvent_of_answer {s : State} {k : ReqKind} {tag : Byte} {st : Status} {b : ReplyBody}
    (ha : s.link.answer = some { kind := k.code, tag := tag, status := st, body := b }) (hl : s.link.live = true)
    (hst : st ≠ .starting) (hn : s.notes = { moved := false, withdrawn := false }) :
    s.closeEvent = (s.replying k tag st b).drivePins := by
  have hs : ∀ l, (s.setLink l).setNotes { moved := false, withdrawn := false } = s.setLink l := by
    intro l; rw [← hn]; rfl
  simp [State.closeEvent, State.frameOwed, State.buildReply, State.tellState, State.replying, ha, hl, hst, hn]
  rw [← hl, ← hn]
  rfl

/-! ### What an event sets off -/

/-- Where no block but the write queue has anything to begin, the blocks settle into what the high-mark run makes of the state. -/
theorem settleBlocks_of_run {s : State} (h1 : s.closeStands = true) (h2 : s.rest.op ≠ .none ∨ s.rest.list = [])
    (h3 : s.flightStands = true) (h4 : s.donorStands = true) (h5 : s.checkStands = true) (h7 : s.eraseStands = true) :
    s.settleBlocks = s.updateRun := by
  have e1 : s.beginClosePass = s := by
    unfold State.beginClosePass
    unfold State.closeStands at h1
    split
    · rfl
    · rename_i c hc
      simp only [hc, Bool.and_eq_true, Bool.or_eq_true, bne_iff_ne, ne_eq] at h1
      rw [if_neg]
      rintro ⟨hd, ha⟩
      rcases h1.1 with h | h
      · exact h hd
      · obtain ⟨e, he, he'⟩ := List.any_eq_true.mp h
        have := List.all_eq_true.mp ha e he
        simp [he'] at this
  have e2 : s.restoresTake = s := by
    unfold State.restoresTake
    rcases h2 with h2 | h2
    · cases hl : s.rest.list with
      | nil => rfl
      | cons a l => simp [takeRestores, h2]
    · rw [h2]; rfl
  have e3 : s.sourceFault = s := by
    unfold State.sourceFault
    split_ifs with hf
    · have : s.uncapturedPages.find? s.unrestorable = none := by
        rw [List.find?_eq_none]
        unfold State.flightStands at h3
        intro p hp hu
        have ha : s.uncapturedPages.any s.unrestorable = true := List.any_eq_true.mpr ⟨p, hp, hu⟩
        cases hc : s.ckpt.state <;> simp_all [State.inFlight]
      rw [this]
    · rfl
  have e4 : s.passUnset = s := by
    unfold State.passUnset
    rw [if_neg]
    rintro ⟨hc, hn, ha⟩
    unfold State.flightStands at h3
    simp only [hc, Bool.and_eq_true, Bool.or_eq_true] at h3
    rcases h3.1.2 with h | h
    · exact hn (by simpa using h)
    · obtain ⟨p, hp, hp'⟩ := List.any_eq_true.mp h
      have := List.all_eq_true.mp ha p hp
      simp_all
  have e5 : s.nextProgram = s := by
    unfold State.nextProgram
    by_cases hc : s.ckpt.state = .capturing ∧ s.ckpt.begun ∧ ¬ s.ckpt.asked
    · rw [if_pos hc]
      obtain ⟨hc, hb, ha⟩ := hc
      unfold State.flightStands at h3
      simp only [hc, Bool.and_eq_true] at h3
      have h := h3.2
      simp only [hb, Bool.not_true, Bool.false_or] at h
      cases hbuf : s.ckpt.buffer with
      | nil => simp_all
      | cons e l => simp_all
    · rw [if_neg hc]
  have e6 : s.passTest = s := by
    unfold State.passTest
    split_ifs with hc hl
    · unfold State.donorStands at h4
      simp only [hc.1, hc.2.2] at h4
      have := hc.2.1
      simp_all
      omega
    · unfold State.donorStands at h4
      have hq : s.xfer.caughtUp = true := by
        have := hc.2.1
        simp_all
      have : ({ s.xfer with caughtUp := true } : Transfer) = s.xfer := by rw [← hq]
      rw [this]; rfl
    · rfl
  have e7 : s.sendFinal = s := by
    unfold State.sendFinal
    unfold State.closeStands at h1
    split
    · rfl
    · rw [if_neg]
      rintro ⟨ha, hb, hc⟩
      simp_all
  have e8 : s.beginCheck = s := by
    unfold State.beginCheck
    unfold State.checkStands at h5
    split
    · rfl
    · rw [if_neg]
      rintro ⟨ha, hb, hc⟩
      simp_all
  have e10 : s.updateRun.startPreErase = s.updateRun := by
    unfold State.startPreErase
    unfold State.eraseStands at h7
    have ec : s.updateRun.ckpt = s.ckpt := rfl
    rw [ec]
    simp only [Bool.or_eq_true, Bool.and_eq_true, bne_iff_ne, ne_eq] at h7
    rw [if_neg]
    rintro ⟨a, b, c⟩
    rcases h7 with (h7 | h7) | h7
    · exact h7 a
    · exact b h7
    · rcases c with c | c
      · exact h7.1 c
      · exact h7.2 c
  simp only [State.settleBlocks, e1, e2, e3, e4, e5, e6, e7, e8, e10]

/-- A high-mark run that is what the occupancy makes it stays so. -/
theorem updateRun_of_runStands {s : State} (h6 : s.runStands = true) : s.updateRun = s := by
  unfold State.updateRun
  unfold State.runStands at h6
  have : (if s.highMark ≤ s.queue.entries.length then true
      else if s.queue.entries.length ≤ s.lowMark then false else s.queue.run) = s.queue.run := by
    split_ifs at h6 ⊢ <;> simp_all
  simp only [this]; rfl

/-- A still state settles into itself. -/
theorem settleBlocks_of_still {s : State} (h : s.still) : s.settleBlocks = s := by
  obtain ⟨h1, h2, h3, h4, h5, h6, h7⟩ := h
  rw [settleBlocks_of_run h1 h2 h3 h4 h5 h7, updateRun_of_runStands h6]

theorem settle_of_still {s : State} (h : s.still) : s.settle = s := by
  unfold State.settle
  split
  · exact settleBlocks_of_still h
  · rfl

/-- With no request waiting nothing follows in the same event. -/
theorem afterwards_of_idle {s : State} (h1 : s.link.job = none) (h2 : s.link.second = none) : s.afterwards = s := by
  simp [State.afterwards, h1, h2]

/-! ### Requests -/

/-- The code of a kind names the kind. -/
theorem ofCode_code (k : ReqKind) : ReqKind.ofCode k.code = some k := by cases k <;> rfl

/-- A request made by a host with its check computed passes the check (R155 order 1). -/
theorem makeRequest_sound (k : ReqKind) (tag : Byte) (body : List Byte) :
    requestSound k.code (makeRequest k tag body) = true := by
  simp [requestSound, makeRequest, requestChecked]

/-- The state in which a request's handler runs (R154). -/
def State.working (s : State) : State := s.setLink { s.link with phase := .working, live := true }

/-- A request that is served reaches its handler. -/
theorem takeRequest_of_serves {s : State} {k : ReqKind} {r : Request} {ups : List Upset} (h : s.serves k r) :
    s.takeRequest k r ups = s.working.dispatch k r ups := by
  obtain ⟨h1, h2, h3, -, -, h6, h7, h8⟩ := h
  have hr : s.working.linkRefusal k r = none := by
    simp [State.linkRefusal, State.working, h1, h6, h8, h7]
  have : (s.setLink { s.link with phase := .working, live := true }).handleByte k.code r ups =
      s.working.dispatch k r ups := by
    simp only [State.handleByte, ofCode_code, State.handleRequest]
    change (match s.working.linkRefusal k r with | some st => _ | none => _) = _
    rw [hr]; rfl
  unfold State.takeRequest State.takeByte
  rw [if_neg (by simp [h2])]
  split
  · exact this
  · simp_all

/-- Stillness does not look at the host link, the output lines or the fault store. -/
theorem still_setLink {s : State} {l : Link} : (s.setLink l).still ↔ s.still := Iff.rfl

/-- The answer and the working phase leave no trace in the reply. -/
@[simp] theorem answer_replying (u : State) (k k' : ReqKind) (tag tag' : Byte) (st st' : Status) (b b' : ReplyBody) :
    (u.answer k tag st b).replying k' tag' st' b' = u.replying k' tag' st' b' := rfl

@[simp] theorem working_replying (u : State) (k : ReqKind) (tag : Byte) (st : Status) (b : ReplyBody) :
    u.working.replying k tag st b = u.replying k tag st b := rfl

/-- A plain request whose handler answers ends with its reply. -/
theorem plain_answer {s u : State} {k : ReqKind} {r : Request} {ups : List Upset} {st : Status} {b : ReplyBody}
    (hs : s.serves k r) (hd : s.working.dispatch k r ups = u.answer k r.tag st b) (hl : u.link.live = true)
    (hn : u.notes = { moved := false, withdrawn := false }) (hst : st ≠ .starting) :
    s.plainEvent (fun t => t.takeRequest k r ups) = (u.replying k r.tag st b).drivePins := by
  simp only [State.plainEvent, takeRequest_of_serves hs, hd]
  rw [closeEvent_of_answer (s := u.answer k r.tag st b) rfl hl hst hn]; rfl

/-- So does any request whose handler leaves the part still. -/
theorem event_answer {s u : State} {k : ReqKind} {r : Request} {ups : List Upset} {st : Status} {b : ReplyBody}
    (hs : s.serves k r) (hd : s.working.dispatch k r ups = u.answer k r.tag st b) (hl : u.link.live = true)
    (hj : u.link.job = none) (h2 : u.link.second = none)
    (hn : u.notes = { moved := false, withdrawn := false }) (hst : st ≠ .starting) (hu : u.still) :
    s.event (fun t => t.takeRequest k r ups) = (u.replying k r.tag st b).drivePins := by
  have hset : (u.answer k r.tag st b).settle = u.answer k r.tag st b := settle_of_still (still_setLink.mpr hu)
  have haft : (u.answer k r.tag st b).afterwards = u.answer k r.tag st b := afterwards_of_idle hj h2
  simp only [State.event, takeRequest_of_serves hs, hd, hset, haft]
  rw [closeEvent_of_answer (s := u.answer k r.tag st b) rfl hl hst hn]; rfl

/-- A reply leaves true lines true. -/
theorem lines_replying {u : State} {k : ReqKind} {tag : Byte} {st : Status} {b : ReplyBody} (h : u.linesTrue) :
    (u.replying k tag st b).linesTrue := h

/-- Lines of a state whose PERMIT condition and phase are those of a state with true lines: only ALERT follows. -/
theorem drivePins_alert {s u : State} (h : s.linesTrue) (hp : u.pins = s.pins) (hc : u.permitCond = s.permitCond)
    (hph : u.phase = s.phase) : u.drivePins = u.setPins { s.pins with alert := u.alertCond } := by
  obtain ⟨h1, -, h3, h4⟩ := h
  unfold State.drivePins
  congr 1
  rw [hp, hc, hph, ← h1, ← h3]
  cases hh : s.pins with
  | mk a b c d =>
    simp only [hh] at h4 ⊢
    cases c <;> cases d <;> simp_all

/-- And none where the ALERT condition is the same too. -/
theorem drivePins_same {s u : State} (h : s.linesTrue) (hp : u.pins = s.pins) (hc : u.permitCond = s.permitCond)
    (hph : u.phase = s.phase) (ha : u.alertCond = s.alertCond) : u.drivePins = u := by
  have h2 := h.2.1
  rw [drivePins_alert h hp hc hph, ha, ← h2]
  have : ({ s.pins with alert := s.pins.alert } : Pins) = u.pins := by rw [hp]
  rw [this]; rfl

/-- A plain request: the state after it, with the ALERT line it drives. -/
theorem plain_reply {s u : State} {k : ReqKind} {r : Request} {ups : List Upset} {st : Status} {b : ReplyBody}
    (hs : s.serves k r) (hd : s.working.dispatch k r ups = u.answer k r.tag st b) (hl : u.link.live = true)
    (hn : u.notes = s.notes) (hst : st ≠ .starting) (hp : u.pins = s.pins) (hc : u.permitCond = s.permitCond)
    (hph : u.phase = s.phase) :
    s.plainEvent (fun t => t.takeRequest k r ups) =
      (u.setPins { s.pins with alert := u.alertCond }).replying k r.tag st b := by
  rw [plain_answer hs hd hl (hn.trans hs.2.2.2.2.1.2.notes_eq) hst]
  exact drivePins_alert (u := u.replying k r.tag st b) hs.2.2.2.2.1.1 hp hc hph

/-- A plain request that leaves what the lines depend on alone. -/
theorem plain_reply_same {s u : State} {k : ReqKind} {r : Request} {ups : List Upset} {st : Status} {b : ReplyBody}
    (hs : s.serves k r) (hd : s.working.dispatch k r ups = u.answer k r.tag st b) (hl : u.link.live = true)
    (hn : u.notes = s.notes) (hst : st ≠ .starting) (hp : u.pins = s.pins) (hc : u.permitCond = s.permitCond)
    (hph : u.phase = s.phase) (ha : u.alertCond = s.alertCond) :
    s.plainEvent (fun t => t.takeRequest k r ups) = u.replying k r.tag st b := by
  rw [plain_answer hs hd hl (hn.trans hs.2.2.2.2.1.2.notes_eq) hst]
  exact drivePins_same (u := u.replying k r.tag st b) hs.2.2.2.2.1.1 hp hc hph ha

/-- A request whose handler leaves the part still: the state after it. -/
theorem event_reply {s u : State} {k : ReqKind} {r : Request} {ups : List Upset} {st : Status} {b : ReplyBody}
    (hs : s.serves k r) (hd : s.working.dispatch k r ups = u.answer k r.tag st b) (hl : u.link.live = true)
    (hj : u.link.job = none) (h2 : u.link.second = none) (hn : u.notes = s.notes) (hst : st ≠ .starting)
    (hu : u.still) (hp : u.pins = s.pins) (hc : u.permitCond = s.permitCond) (hph : u.phase = s.phase) :
    s.event (fun t => t.takeRequest k r ups) =
      (u.setPins { s.pins with alert := u.alertCond }).replying k r.tag st b := by
  rw [event_answer hs hd hl hj h2 (hn.trans hs.2.2.2.2.1.2.notes_eq) hst hu]
  exact drivePins_alert (u := u.replying k r.tag st b) hs.2.2.2.2.1.1 hp hc hph

/-- A request that leaves the part still and what the lines depend on alone. -/
theorem event_reply_same {s u : State} {k : ReqKind} {r : Request} {ups : List Upset} {st : Status} {b : ReplyBody}
    (hs : s.serves k r) (hd : s.working.dispatch k r ups = u.answer k r.tag st b) (hl : u.link.live = true)
    (hj : u.link.job = none) (h2 : u.link.second = none) (hn : u.notes = s.notes) (hst : st ≠ .starting)
    (hu : u.still) (hp : u.pins = s.pins) (hc : u.permitCond = s.permitCond) (hph : u.phase = s.phase)
    (ha : u.alertCond = s.alertCond) :
    s.event (fun t => t.takeRequest k r ups) = u.replying k r.tag st b := by
  rw [event_answer hs hd hl hj h2 (hn.trans hs.2.2.2.2.1.2.notes_eq) hst hu]
  exact drivePins_same (u := u.replying k r.tag st b) hs.2.2.2.2.1.1 hp hc hph ha

/-- A request that waits: nothing is answered, and nothing else follows. -/
theorem event_wait {s u : State} {k : ReqKind} {r : Request} {ups : List Upset}
    (hs : s.serves k r) (hd : s.working.dispatch k r ups = u) (hq : u.quiet) (hdf : u.serveDeferred = u)
    (hj : u.link.job.isSome = true) (hu : u.still) (hp : u.pins = s.pins) (hc : u.permitCond = s.permitCond)
    (hph : u.phase = s.phase) (ha : u.alertCond = s.alertCond) :
    s.event (fun t => t.takeRequest k r ups) = u := by
  have haft : u.afterwards = u := by
    obtain ⟨j, hj'⟩ := Option.isSome_iff_exists.mp hj
    simp [State.afterwards, hj', hdf, settle_of_still hu]
  simp only [State.event, takeRequest_of_serves hs, hd, settle_of_still hu, haft]
  rw [closeEvent_of_quiet hq]
  exact drivePins_same hs.2.2.2.2.1.1 hp hc hph ha

/-- A still part is settled. -/
theorem settled_of_still {s : State} (h : s.still) : s.settled := settle_of_still h

/-- Where no host read waits, nothing follows in the same event. -/
theorem afterwards_of_settled {s : State} (hs : s.settled) (hr : s.readsDone) : s.afterwards = s := by
  obtain ⟨h2, h1⟩ := hr
  have hd : s.serveDeferred = s := by
    unfold State.serveDeferred
    unfold State.readWaits at h1
    split <;> simp_all
  unfold State.afterwards
  cases hj : s.link.job with
  | none => simp [hj, h2]
  | some j => simp [hd, show s.settle = s from hs, h2]

/-- An event after which the part is settled ends at once. -/
theorem event_of_settled {s : State} {f : State → State} (hs : (f s).settled) (hr : (f s).readsDone) :
    s.event f = (f s).closeEvent := by
  unfold State.event
  rw [show (f s).settle = f s from hs, afterwards_of_settled hs hr]

/-- An event that settles into a settled state. -/
theorem event_of_settle {s u : State} {f : State → State} (hf : (f s).settle = u) (hs : u.settled) (hr : u.readsDone) :
    s.event f = u.closeEvent := by
  unfold State.event
  rw [hf, afterwards_of_settled hs hr]

/-- Such an event that leaves the lines and what they depend on alone. -/
theorem event_settle_same {s u : State} {f : State → State} (hf : (f s).settle = u) (hs : u.settled) (hr : u.readsDone)
    (hq : u.quiet) (hl : s.linesTrue) (hp : u.pins = s.pins) (hc : u.permitCond = s.permitCond)
    (hph : u.phase = s.phase) (ha : u.alertCond = s.alertCond) : s.event f = u := by
  rw [event_of_settle hf hs hr, closeEvent_of_quiet hq]
  exact drivePins_same hl hp hc hph ha

/-- Such an event of a block that answers nothing and owes nothing: the lines follow. -/
theorem event_lines {s : State} {f : State → State} (hs : (f s).settled) (hr : (f s).readsDone) (hq : (f s).quiet) :
    s.event f = (f s).withLines := by
  rw [event_of_settled hs hr, closeEvent_of_quiet hq]; rfl

/-- And where it leaves PERMIT and STARTED alone, only ALERT follows. -/
theorem event_alert {s : State} {f : State → State} (hs : (f s).settled) (hr : (f s).readsDone) (hq : (f s).quiet)
    (hl : s.linesTrue) (hp : (f s).pins = s.pins) (hc : (f s).permitCond = s.permitCond) (hph : (f s).phase = s.phase) :
    s.event f = (f s).withAlert := by
  rw [event_of_settled hs hr, closeEvent_of_quiet hq, drivePins_alert hl hp hc hph, ← hp]; rfl

/-- And none where it leaves the fault store alone too. -/
theorem event_same {s : State} {f : State → State} (hs : (f s).settled) (hr : (f s).readsDone) (hq : (f s).quiet)
    (hl : s.linesTrue) (hp : (f s).pins = s.pins) (hc : (f s).permitCond = s.permitCond) (hph : (f s).phase = s.phase)
    (ha : (f s).alertCond = s.alertCond) : s.event f = f s := by
  rw [event_of_settled hs hr, closeEvent_of_quiet hq]
  exact drivePins_same hl hp hc hph ha

/-- An event that answers a request and owes nothing: the reply, then the lines. -/
theorem event_answered {s u : State} {f : State → State} {k : ReqKind} {tag : Byte} {st : Status} {b : ReplyBody}
    (hf : f s = u.answer k tag st b) (hs : (u.answer k tag st b).settled) (hr : u.readsDone) (hl : u.link.live = true)
    (hst : st ≠ .starting) (hn : u.notes = { moved := false, withdrawn := false }) :
    s.event f = (u.replying k tag st b).withLines := by
  rw [event_of_settled (by rw [hf]; exact hs) (by rw [hf]; exact hr), hf,
    closeEvent_of_answer (s := u.answer k tag st b) rfl hl hst hn]
  rfl

/-- The raise of a kind that crosses no threshold. -/
theorem raise_low {s : State} {k : FaultKind} {w : Nat} (h : s.pressure.p + w < 512) : s.raise k w = s.raised k w := by
  have hq : pressureAfter s.pressure.p w = s.pressure.p + w := by
    unfold pressureAfter Config.pressureTop; omega
  have h1 : s.raiseCore k w = s.raised k w := by
    unfold State.raiseCore State.addPressure State.noteKind
    simp only [State.setFaults_pressure, hq, Config.pressureHigh]
    rw [if_neg (by omega)]
    unfold State.raised
    by_cases hw : w = 0
    · subst hw; simp [State.setPressure, State.setFaults]
    · rw [if_neg (by omega), if_neg hw]; rfl
  unfold State.raise
  rw [h1, if_neg]
  rintro ⟨_, h2, _⟩
  have : (s.raised k w).pressure.p = s.pressure.p + w := rfl
  rw [this] at h2; unfold Config.pressureWithdraw at h2; omega

/-- A frame finds the primary slot empty. -/
theorem placeFrame_empty {s : State} (f : FaultFrame) (h : s.faults.primary = none) : s.placeFrame f = s.framed f := by
  unfold State.placeFrame
  rw [h]; rfl

/-! ### What a raise and a frame leave alone -/

theorem still_raised {s : State} {k : FaultKind} {w : Nat} (h : s.still) : (s.raised k w).still := h

theorem still_framed {s : State} {f : FaultFrame} (h : s.still) : (s.framed f).still := h

theorem still_setCursor {s : State} {c : Option Cursor} (h : s.still) : (s.setCursor c).still := h

@[simp] theorem permitCond_raised (s : State) (k : FaultKind) (w : Nat) : (s.raised k w).permitCond = s.permitCond := rfl

@[simp] theorem permitCond_framed (s : State) (f : FaultFrame) : (s.framed f).permitCond = s.permitCond := rfl

@[simp] theorem permitCond_setLink (s : State) (l : Link) : (s.setLink l).permitCond = s.permitCond := rfl

/-! ### Frames handed to a port -/

/-- A part with a lane number hands a frame over under that number. -/
theorem hand_of_numbered {s : State} {n : Nat} (h : s.laneNumber = some n) (p : PortId) (f : LaneFrame) :
    s.hand p f = s.setPorts (s.ports.put p ((s.ports.at p).hand { lane := n, frame := f })) := by simp [State.hand, h]

/-- A part without one hands nothing over. -/
theorem hand_of_unnumbered {s : State} (h : s.laneNumber = none) (p : PortId) (f : LaneFrame) : s.hand p f = s := by
  simp [State.hand, h]

/-! ### The erase hold -/

/-- Without the hold there is nothing to clear. -/
theorem clearHold_of_clear {s : State} (h : s.ckpt.hold = false) : s.clearHold = s := by simp [State.clearHold, h]

/-- An idle engine without the hold erases an inactive slot that is INVALID or COMPLETE. -/
theorem startPreErase_of_due {s : State} (hi : s.ckpt.state = .idle) (hh : s.ckpt.hold = false)
    (hx : (s.ckpt.slot s.ckpt.inactive).state = .invalid ∨ (s.ckpt.slot s.ckpt.inactive).state = .complete) :
    s.startPreErase = s.preErase s.ckpt.inactive := by
  simp [State.startPreErase, hi, hh, hx]

/-- The slot that an idle engine erases when the hold clears: the inactive slot, or the faulted one where that is ERASED. -/
theorem clearHold_of_held {s : State} (h : s.ckpt.hold = true) (hi : s.ckpt.state = .idle)
    (hw : (s.ckpt.slot s.ckpt.inactive).state ≠ .writing) (hg : (s.ckpt.slot s.ckpt.inactive).state ≠ .erasing) :
    s.clearHold = (s.setCkpt { s.ckpt with hold := false }).preErase
      (if (s.ckpt.slot s.ckpt.inactive).state = .erased then s.ckpt.target else s.ckpt.inactive) := by
  by_cases he : (s.ckpt.slot s.ckpt.inactive).state = .erased
  · simp [State.clearHold, h, hi, he]
  · rw [State.clearHold, if_pos h, if_neg he]
    dsimp only
    rw [if_neg (fun x => he x.2)]
    refine startPreErase_of_due (s := s.setCkpt { s.ckpt with hold := false }) hi rfl ?_
    change (s.ckpt.slot s.ckpt.inactive).state = .invalid ∨ (s.ckpt.slot s.ckpt.inactive).state = .complete
    cases hk : (s.ckpt.slot s.ckpt.inactive).state <;> simp_all

/-! ### The end of an event before another grant -/

/-- An event that owes nothing ends without a trace. -/
theorem eventOver_of_quiet {s : State} (h : s.quiet) : s.eventOver = s := by
  obtain ⟨-, hm, hw⟩ := h
  simp only [State.eventOver, State.frameOwed, State.tellState, hm, hw, Bool.false_eq_true, if_false]
  have : ({ moved := false, withdrawn := false } : Notes) = s.notes := by cases hn : s.notes; simp_all
  rw [this]; rfl

/-! ### Programs of the array -/

/-- A programmed field never reads erased (R92). -/
theorem programField_used {α : Type} [DecidableEq α] (was : Field α) (v : α) (left : Option (Field α)) :
    (programField was v left).1 ≠ .erased := by
  unfold programField usedField
  simp only
  split <;> simp_all

/-- A program succeeds exactly where the area was erased and reads back as written (R92). -/
theorem programField_fine {α : Type} [DecidableEq α] (was : Field α) (v : α) (left : Option (Field α)) :
    (programField was v left).2 = false ↔ was = .erased ∧ (left = none ∨ left = some (.whole v)) := by
  cases was <;> cases left with
  | none => simp [programField, usedField]
  | some x => cases x <;> simp [programField, usedField]

end Sys2Proof.Machine
end

