-- ==== Sys2Proof/Laws/Tables.lean ====
section
/-! SUPPORT. The laws of the sparse tables, of the image store and of the page state table: what a read gives after a write, and
that every operation keeps the canonical form. -/

namespace Sys2Proof.Machine

variable {α : Type} [DecidableEq α]

/-! ### Sparse tables -/

theorem tabGet_of_above {d : α} {m : List (Nat × α)} {a : Nat} (h : tabWf d m = true) (ha : tabAbove a m = true) :
    tabGet d m a = d := by
  induction m with
  | nil => rfl
  | cons x m ih =>
    obtain ⟨k, v⟩ := x
    simp only [tabAbove, decide_eq_true_eq] at ha
    simp only [tabWf, Bool.and_eq_true] at h
    simp only [tabGet, if_neg (show a ≠ k by omega)]
    refine ih h.2 ?_
    cases m with
    | nil => rfl
    | cons y m =>
      have := h.1.2
      simp only [tabAbove, decide_eq_true_eq] at this ⊢
      omega

/-- A read of another key gives what it gave. -/
theorem tabGet_put_other (d : α) (m : List (Nat × α)) {a b : Nat} (v : α) (h : b ≠ a) :
    tabGet d (tabPut d m a v) b = tabGet d m b := by
  induction m with
  | nil =>
    simp only [tabPut]
    split <;> simp [tabGet, h]
  | cons x m ih =>
    obtain ⟨k, w⟩ := x
    simp only [tabPut]
    split_ifs with h1 h2 h3 h4
    · rfl
    · simp [tabGet, h]
    · subst h3; simp [tabGet, h]
    · subst h3; simp [tabGet, h]
    · simp only [tabGet, ih]

/-- A read of the written key gives the value written. -/
theorem tabGet_put_same (d : α) {m : List (Nat × α)} {a : Nat} {v : α} (h : tabWf d m = true ∨ v ≠ d) :
    tabGet d (tabPut d m a v) a = v := by
  induction m with
  | nil =>
    simp only [tabPut]
    split
    · rename_i hv; simp [tabGet, hv]
    · simp [tabGet]
  | cons x m ih =>
    obtain ⟨k, w⟩ := x
    simp only [tabPut]
    split_ifs with h1 h2 h3 h4
    · rcases h with h | h
      · rw [h2]; exact tabGet_of_above h (by simpa [tabAbove] using h1)
      · exact absurd h2 h
    · simp [tabGet]
    · subst h3
      rcases h with h | h
      · simp only [tabWf, Bool.and_eq_true] at h
        rw [h4]; exact tabGet_of_above h.2 h.1.2
      · exact absurd h4 h
    · simp [tabGet]
    · simp only [tabGet, if_neg h3]
      refine ih ?_
      rcases h with h | h
      · simp only [tabWf, Bool.and_eq_true] at h; exact Or.inl h.2
      · exact Or.inr h

theorem tabAbove_put {d : α} {m : List (Nat × α)} {k a : Nat} {v : α} (h : tabAbove k m = true) (hk : k < a)
    (hm : tabWf d m = true) : tabAbove k (tabPut d m a v) = true := by
  cases m with
  | nil =>
    simp only [tabPut]
    split <;> simp [tabAbove, hk]
  | cons x m =>
    obtain ⟨j, w⟩ := x
    simp only [tabAbove, decide_eq_true_eq] at h
    simp only [tabPut]
    split_ifs with h1 h2 h3 h4
    · simpa [tabAbove] using h
    · simpa [tabAbove] using hk
    · simp only [tabWf, Bool.and_eq_true] at hm
      cases m with
      | nil => rfl
      | cons y m =>
        have := hm.1.2
        simp only [tabAbove, decide_eq_true_eq] at this ⊢
        omega
    · simpa [tabAbove] using hk
    · simpa [tabAbove] using h

/-- A write keeps the canonical form. -/
theorem tabWf_put {d : α} {m : List (Nat × α)} (a : Nat) (v : α) (h : tabWf d m = true) :
    tabWf d (tabPut d m a v) = true := by
  induction m with
  | nil =>
    simp only [tabPut]
    split
    · rfl
    · rename_i hv; simp [tabWf, tabAbove, hv]
  | cons x m ih =>
    obtain ⟨k, w⟩ := x
    have h' := h
    simp only [tabWf, Bool.and_eq_true, decide_eq_true_eq] at h'
    obtain ⟨⟨hw, hab⟩, hm⟩ := h'
    simp only [tabPut]
    split_ifs with h1 h2 h3 h4
    · exact h
    · simp only [tabWf, Bool.and_eq_true, decide_eq_true_eq]
      exact ⟨⟨h2, by simpa [tabAbove] using h1⟩, ⟨⟨hw, hab⟩, hm⟩⟩
    · exact hm
    · subst h3
      simp only [tabWf, Bool.and_eq_true, decide_eq_true_eq]
      exact ⟨⟨h4, hab⟩, hm⟩
    · simp only [tabWf, Bool.and_eq_true, decide_eq_true_eq]
      exact ⟨⟨hw, tabAbove_put hab (by omega) hm⟩, ih hm⟩

theorem tabAbove_filter {d : α} {m : List (Nat × α)} {k : Nat} (p : Nat × α → Bool) (h : tabAbove k m = true)
    (hm : tabWf d m = true) : tabAbove k (m.filter p) = true := by
  induction m with
  | nil => rfl
  | cons x m ih =>
    obtain ⟨j, w⟩ := x
    simp only [tabAbove, decide_eq_true_eq] at h
    simp only [tabWf, Bool.and_eq_true] at hm
    rw [List.filter_cons]
    split
    · simpa [tabAbove] using h
    · refine ih ?_ hm.2
      cases m with
      | nil => rfl
      | cons y m =>
        have := hm.1.2
        simp only [tabAbove, decide_eq_true_eq] at this ⊢
        omega

/-- Dropping entries keeps the canonical form. -/
theorem tabWf_filter {d : α} {m : List (Nat × α)} (p : Nat × α → Bool) (h : tabWf d m = true) :
    tabWf d (m.filter p) = true := by
  induction m with
  | nil => rfl
  | cons x m ih =>
    obtain ⟨k, w⟩ := x
    have h' := h
    simp only [tabWf, Bool.and_eq_true, decide_eq_true_eq] at h'
    obtain ⟨⟨hw, hab⟩, hm⟩ := h'
    rw [List.filter_cons]
    split
    · simp only [tabWf, Bool.and_eq_true, decide_eq_true_eq]
      exact ⟨⟨hw, tabAbove_filter p hab hm⟩, ih hm⟩
    · exact ih hm

/-! ### The image store (R1) -/

/-- A written cell holds the value with a matching code, and every other cell is as it was. -/
theorem cell_writeCell (s : State) (a : Nat) (v : Word) (b : Nat) :
    (s.writeCell a v).cell b = if b = a then { value := v, damage := .intact } else s.cell b := by
  unfold State.cell State.writeCell
  split_ifs with h
  · subst h
    rw [State.setImage_image, tabGet_put_same none (Or.inr (Option.some_ne_none _))]
  · simp only [State.setImage_image, State.setImage_powerOns, tabGet_put_other none _ _ h]

@[simp] theorem writeRun_nil (s : State) (a : Nat) : s.writeRun a [] = s := rfl
@[simp] theorem writeRun_cons (s : State) (a : Nat) (v : Word) (vs : List Word) :
    s.writeRun a (v :: vs) = (s.writeCell a v).writeRun (a + 1) vs := rfl

/-- A run of written cells holds the values in order, and every other cell is as it was. -/
theorem cell_writeRun (s : State) (a : Nat) (vs : List Word) (b : Nat) :
    (s.writeRun a vs).cell b =
      if h : a ≤ b ∧ b < a + vs.length then { value := vs[b - a]'(by omega), damage := .intact } else s.cell b := by
  induction vs generalizing s a with
  | nil => simp
  | cons v vs ih =>
    rw [writeRun_cons, ih, cell_writeCell]
    by_cases hab : b = a
    · subst hab
      rw [dif_neg (by omega), if_pos rfl, dif_pos (by simp)]
      simp
    · by_cases h : a + 1 ≤ b ∧ b < a + 1 + vs.length
      · rw [dif_pos h, dif_pos (by simp only [List.length_cons]; omega)]
        have : b - a = (b - (a + 1)) + 1 := by omega
        simp only [this, List.getElem_cons_succ]
      · rw [dif_neg h, if_neg hab, dif_neg (by simp only [List.length_cons]; omega)]

theorem writeCell_eq (s : State) (a : Nat) (v : Word) : ∃ m, s.writeCell a v = s.setImage m := ⟨_, rfl⟩

/-- A run of writes changes the image and nothing else. -/
theorem writeRun_eq (s : State) (a : Nat) (vs : List Word) : s.writeRun a vs = s.setImage (s.writeRun a vs).image := by
  induction vs generalizing s a with
  | nil => rfl
  | cons v vs ih =>
    rw [writeRun_cons]
    conv => lhs; rw [ih]
    rfl

theorem imageWf_writeCell {s : State} (a : Nat) (v : Word) (h : s.imageWf = true) : (s.writeCell a v).imageWf = true :=
  tabWf_put a _ h

theorem imageWf_writeRun {s : State} (a : Nat) (vs : List Word) (h : s.imageWf = true) :
    (s.writeRun a vs).imageWf = true := by
  induction vs generalizing s a with
  | nil => exact h
  | cons v vs ih => exact ih (a + 1) (imageWf_writeCell a v h)

theorem imageWf_strike {s : State} (us : List Upset) (h : s.imageWf = true) : (s.strike us).imageWf = true := by
  induction us generalizing s with
  | nil => exact h
  | cons u us ih => exact ih (tabWf_put _ _ h)

/-- An upset changes no value. -/
theorem value_strike (s : State) (us : List Upset) (a : Nat) : ((s.strike us).cell a).value = (s.cell a).value := by
  induction us generalizing s with
  | nil => rfl
  | cons u us ih =>
    rw [State.strike, ih]
    unfold State.cell
    by_cases h : a = u.cell
    · subst h
      simp only [State.setImage_image, tabGet_put_same none (Or.inr (Option.some_ne_none _))]
    · simp only [State.setImage_image, State.setImage_powerOns, tabGet_put_other none _ _ h]

/-! ### The page state table (R4) -/

/-- A page's record after a write of another page's. -/
theorem page_putPage_other (s : State) {p q : Nat} (r : PageRec) (h : q ≠ p) : (s.putPage p r).page q = s.page q :=
  tabGet_put_other _ _ _ h

/-- A page's record after its own write. -/
theorem page_putPage_same {s : State} {p : Nat} {r : PageRec} (h : s.pagesWf = true ∨ r ≠ PageRec.fresh) :
    (s.putPage p r).page p = r := tabGet_put_same _ h

theorem pagesWf_putPage {s : State} (p : Nat) (r : PageRec) (h : s.pagesWf = true) : (s.putPage p r).pagesWf = true :=
  tabWf_put p r h

theorem pagesWf_mapPages {s : State} (f : PageRec → PageRec) (ps : List Nat) (h : s.pagesWf = true) :
    (s.mapPages f ps).pagesWf = true := by
  induction ps generalizing s with
  | nil => exact h
  | cons p ps ih => exact ih (pagesWf_putPage _ _ h)

end Sys2Proof.Machine
end

