-- ==== Sys2Proof/Tests/Slice0.lean ====
section
/-! SUPPORT. Tests: the smoke test of WellFormed; worked cases of the manual; one step of each command on small states; and for
every statement with hypotheses a concrete state and operands that meet them, clause by clause. Expected values come from
the manual's worked cases and tables, not from the model. -/

namespace Sys2Proof.Tests

set_option Elab.async false

open Sys2Proof Sys2Proof.Machine

/-! ### Small states -/

/-- The 64 cells of a page, all holding `v`, sound. -/
def sheet (p : Nat) (v : Word) : List (Nat × Option StoredCell) :=
  (List.range 64).map (fun o => (p * 64 + o, some { value := v, damage := .intact }))

/-- Two regions: region 1, pages 0 and 1, signed, journalled, checkpointed and guarded; region 2, pages 2 and 3, plain. -/
def table : List Region :=
  [{ number := 1, first := 0, last := 1, signed := true, journalled := true, checkpointed := true, guarded := true,
     autoRestore := false },
   { number := 2, first := 2, last := 3, signed := false, journalled := false, checkpointed := false, guarded := false,
     autoRestore := false }]

/-- One region more: pages 4 to 9, plain. -/
def regionFour : Region :=
  { number := 4, first := 4, last := 9, signed := false, journalled := false, checkpointed := false, guarded := false,
    autoRestore := false }

/-- Lane 1, station 300, the default parameters. -/
def comm : CommRecord :=
  { lane := 1, station := 300, voteWindow := 40, abstainLimit := 3, patrolBase := 20, decayPeriod := 10, highMark := 4,
    lowMark := 1, holdTime := 5, retryLimit := 4, alertMask := 0, regions := table }

def pageIn (st : PageState) : PageRec := { PageRec.fresh with state := st }

def emptySlot : SlotEntry := { state := .erased, generation := none, cycle := none, start := none }

/-- A running part of lane 1 in STANDBY: pages 0, 1 and 2 SOUND, page 3 UNSET, both slots ERASED, the assembler in RECEIVING. -/
def home : State := { State.cold with
  phase := .running
  lane := { State.cold.lane with
    state := .standby, peer1 := Peer.fresh (some 2), peer2 := Peer.fresh (some 3) }
  comm := { stored := .record comm 0, locked := false, inUse := some comm }
  pages := [(0, pageIn .sound), (1, pageIn .sound), (2, pageIn .sound)]
  image := sheet 0 7 ++ sheet 1 9 ++ sheet 2 11
  link := { State.cold.link with hcsLow := true, phase := .receiving }
  ckpt := { State.cold.ckpt with slot0 := emptySlot, slot1 := emptySlot }
  pins := { State.cold.pins with started := true } }

/-- A request with its check. -/
def req (k : ReqKind) (body : List Byte) : Request := makeRequest k 9 body

/-- A lane frame as the lane expected on the port sends it to lane 1. -/
def rx (p : PortId) (f : LaneFrame) : RxFrame := f.received p (expectedLane 1 p)

/-- Changes of one part of a state, for the cases below. -/
def inState (x : LaneState) (s : State) : State := s.setLane { s.lane with state := x }
def withPage (p : Nat) (r : PageRec) (s : State) : State := s.putPage p r
def withDamage (a : Nat) (d : Damage) (s : State) : State := s.strike [{ cell := a, damage := d }]
def withEntries (es : List Entry) (run : Bool) (s : State) : State := s.setQueue { entries := es, run := run }
def withJob (j : Job) (s : State) : State := s.setLink { s.link with phase := .working, live := true, job := some j }
def withClose (c : Close) (s : State) : State := s.setLane { s.lane with close := some c }
def withOp (o : ArrayOp) (s : State) : State := s.setCtl { s.ctl with op := some o }
def withP (n : Nat) (s : State) : State := s.setPressure { s.pressure with p := n }
def withXfer (f : Transfer → Transfer) (s : State) : State := s.setXfer (f s.xfer)
def mapCkpt (f : Checkpoint → Checkpoint) (s : State) : State := s.setCkpt (f s.ckpt)

/-- A receiver whose partner is lane 2 on port 1. -/
def receiver (x : RxPhase) (s : State) : State :=
  withXfer (fun t => { t with role := .receiver x, partner := some (2, .one), idle := true })
    (s.mapPeer .one (fun p => { p with relation := .donor }))

/-- A donor to lane 2 on port 1, in ACTIVE. -/
def donor (plan resend : List Nat) (caughtUp : Bool) : State :=
  withXfer (fun t => { t with
    role := .donor, partner := some (2, .one), plan := plan, resend := resend, caughtUp := caughtUp })
    ((inState .active home).mapPeer .one (fun p => { p with relation := .receiver }))

/-- One queued cell. -/
def entry (p o age : Nat) (closing : Bool) : Entry := { page := p, offset := o, values := [5], age := age, closing := closing }

/-- A close of cycle 1. -/
def closeAt (st : CloseStage) (v : VoteStage) : Close :=
  { cycle := 1, withCheckpoint := false, stage := st, vote := v, signature := some 77 }

/-- A step of the pass over page `p` of region 1. -/
def signOf (p : Nat) : SignStep := { region := 1, page := p, first := decide (p = 0), last := decide (p = 1) }

/-- A held frame and its ALERT. -/
def aFrame : FaultFrame := .link .wiring .one 3 (some 2) (some 3)

def alerted (s : State) : State :=
  (s.setFaults { s.faults with primary := some aFrame, any := true }).setPins { s.pins with alert := true }

/-- A checkpoint in CAPTURING into slot 1, slot 0 COMPLETE with generation 1. -/
def capturing (s : State) : State := mapCkpt (fun k => { k with
  state := .capturing, target := .one, highest := 2, cycle := some 1, start := some 1, toCapture := 2
  slot0 := { state := .complete, generation := some 1, cycle := some 0, start := some 1 }
  slot1 := { state := .writing, generation := some 2, cycle := some 1, start := some 1 } }) s

/-- Slot 0 is the active slot, slot 1 erased. -/
def withActive (s : State) : State := mapCkpt (fun k => { k with
  slot0 := { state := .complete, generation := some 1, cycle := some 0, start := some 1 } }) s

/-- A request of kind `k`, made with its check, is served and sets nothing off. -/
def served (s : State) (k : ReqKind) (body : List Byte) : Bool :=
  decide (s.still ∧ s.phase = .running ∧ s.link.phase = .receiving ∧ s.link.job = none ∧ s.link.second = none ∧
    s.settledOutputs ∧ body.length ≤ Config.bodyBytes ∧ k.fits body = true)

theorem served_spec {s : State} {k : ReqKind} {body : List Byte} (h : served s k body = true) :
    s.still ∧ s.serves k (req k body) := by
  obtain ⟨h1, h2, h3, h4, h5, h6, h7, h8⟩ := of_decide_eq_true h
  exact ⟨h1, h2, h3, h4, h5, h6, makeRequest_sound k 9 body, h7, h8⟩

/-- Nothing is set off, and an event can come. -/
def poised (s : State) : Bool := decide (s.still ∧ s.ready)

theorem poised_spec {s : State} (h : poised s = true) : s.still ∧ s.ready := of_decide_eq_true h

/-- A lane frame, sent by the lane that lane 1 expects on port `p`, is taken and sets nothing off. -/
def takes (s : State) (p : PortId) (f : LaneFrame) : Bool :=
  decide (s.still ∧ s.ready ∧ s.laneNumber = some 1 ∧ laneBodyLength f.code = some (rx p f).body.length)

theorem takes_spec {s : State} {p : PortId} {f : LaneFrame} (h : takes s p f = true) :
    s.still ∧ s.takesFrame 1 f.code (rx p f) := by
  unfold takes at h
  rw [decide_eq_true_eq] at h
  obtain ⟨h1, h2, h3, h4⟩ := h
  refine ⟨h1, h2, h3, ?_, h4, ?_⟩ <;> simp only [rx, LaneFrame.received]

/-- A cut that stops everything where it stands. -/
def cut : Cut := { torn := [], whole := false, cuts := [], ups := [], read := none }

/-! ### Worked cases of the manual -/

/-- The check of "123456789" under 1.5's generator, initial value and bit order (29B1h, the well-known value of that check). -/
theorem test_frameCheck_digits :
    frameCheck [0x31, 0x32, 0x33, 0x34, 0x35, 0x36, 0x37, 0x38, 0x39] = 0x29B1 := by decide +kernel

/-- 4.4.1: region 2 with page 5 alone, station 300, cycle 7. -/
theorem test_signature_one_page :
    pageFed (seedPair 7 300) { region := 2, page := 5, first := true, last := true } ([5, 65537] ++ List.replicate 62 0) =
      (145, 10737) := by decide +kernel

theorem test_signature_reported :
    pairNumber (145, 10737) = 703660177 ∧ pairNumber (21, 383) = 25100309 ∧
      cycleSignature (seedPair 7 300) [(2, 145, 10737)] = 743451275 ∧
      cycleSignature (seedPair 7 300) [(2, 21, 383)] = 48628125 := by decide +kernel

/-- 4.4.2: double reduction of a, single reduction of b, seed wrap, a cell of all ones. -/
theorem test_signature_limits :
    feedSymbol (65518, 0) 65535 = (16, 16) ∧ (feedSymbol (65518, 0) 65519).1 = 0 ∧
      feedSymbol (39, 65500) 0 = (40, 21) ∧ (seedPair 65530 0).1 = 11 ∧ (seedPair 65535 0).1 = 16 ∧
      (seedPair 65519 0).1 = 0 ∧ feedCell (0, 0) 4294967295 = (34, 51) := by decide +kernel

/-- 3.3.2: the decay from 580 to 171. -/
theorem test_decay_worked_case :
    [580, 507, 443, 387, 338, 295, 258, 225, 196].map pressureDecayed = [507, 443, 387, 338, 295, 258, 225, 196, 171] ∧
      pressureDecayed 1023 = 895 ∧ pressureDecayed 1 = 0 ∧ pressureDecayed 0 = 0 ∧ pressureAfter 1000 128 = 1023 := by
  decide +kernel

/-- 3.3.2: the pace level at each step of the case, and the visit intervals with B = 20. -/
theorem test_pace_worked_case :
    paceAfter 564 1 = 2 ∧ paceAfter 507 2 = 2 ∧ paceAfter 443 2 = 1 ∧ paceAfter 196 1 = 1 ∧ paceAfter 171 1 = 0 ∧
      visitInterval 20 2 = 5 ∧ visitInterval 20 1 = 10 ∧ visitInterval 20 0 = 20 := by decide

/-- 3.3.2: UNCORRECTABLE at P = 500 takes P to 564 and raises PRESSURE_HIGH; in ACTIVE an addition of 64 at 748 withdraws the
lane. -/
theorem test_raise_crosses_512 :
    let t := (withP 500 home).raise .uncorrectable 64
    t.pressure.p = 564 ∧ kindIn .pressureHigh t.faults.current = true ∧ kindIn .uncorrectable t.faults.accrued = true := by
  decide +kernel

theorem test_raise_crosses_768 :
    let t := (withP 748 (inState .active home)).raise .uncorrectable 64
    t.pressure.p = 812 ∧ t.lane.state = .excluded ∧ kindIn .pressureHigh t.faults.current = false ∧
      kindIn .selfWithdrawn t.faults.current = true := by decide +kernel

/-- R68: lane A expects B and C, B expects C and A, C expects A and B. -/
theorem test_expectedLane :
    expectedLane 1 .one = 2 ∧ expectedLane 1 .two = 3 ∧ expectedLane 2 .one = 3 ∧ expectedLane 2 .two = 1 ∧
      expectedLane 3 .one = 1 ∧ expectedLane 3 .two = 2 := by decide

/-- R161: the ends of the clamped ranges. -/
theorem test_clampRecord :
    let low := clampRecord { comm with voteWindow := 0, abstainLimit := 0, highMark := 0, lowMark := 9, retryLimit := 3 }
    let high := clampRecord { comm with abstainLimit := 8, highMark := 9, lowMark := 9, retryLimit := 16 }
    low.voteWindow = 1 ∧ low.abstainLimit = 1 ∧ low.highMark = 1 ∧ low.lowMark = 0 ∧ low.retryLimit = 2 ∧
      high.abstainLimit = 7 ∧ high.highMark = 8 ∧ high.lowMark = 7 ∧ high.retryLimit = 16 := by decide

/-- R162: a valid record, and the failing rule of an overlap with both region numbers. -/
theorem test_failingRecord :
    failingRecord comm = none ∧
      failingRecord { comm with regions := table ++ [{ regionFour with number := 3, first := 3 }] } =
        some { rule := .overlap, first := some 2, second := some 3 } := by decide

/-- The opcode table gives no bits, so no word spells a command. -/
theorem test_decodeTableWord_none : decodeTableWord 8 1 = none := rfl

/-- Reset comes up in start-up with nothing waiting and nothing in the memory tables (R166, R4). -/
theorem test_reset : State.reset.phase = .startUp ∧ State.reset.pending = [] ∧ State.reset.pages = [] := by decide

/-- R154, R160: HDO is high impedance with HCS high and in reset, FFh in RECEIVING and in DONE, and the reply's bytes behind
filler in REPLYING. -/
theorem test_hdo :
    let reply : Reply := { kind := 1, tag := 9, status := .starting, summary := none, body := .empty }
    let at_ (p : LinkPhase) : State := home.setLink { home.link with phase := p, reply := some reply }
    (home.setLink { home.link with hcsLow := false }).hdo = .highImpedance ∧ (home.setPhase .held).hdo = .highImpedance ∧
      home.hdo = .filler ∧ (at_ .done).hdo = .filler ∧ (at_ .replying).hdo = .reply (0xFF :: reply.bytes) ∧
      reply.bytes.take 10 = [0xA5, 1, 9, 6, 0, 0, 0, 0, 0, 0] := by decide +kernel

/-- R1: a READ cut by a lane reset keeps what it had corrected, or leaves the cell as it stood. -/
theorem test_laneReset_cuts_read :
    let s := withDamage 191 .oneBit home
    let cutRead (b : Bool) : Cut := { cut with torn := [b], read := some (1, req .read [2, 63, 1, 0]) }
    let left (b : Bool) : Option StoredCell :=
      match exec (.laneResetAssert (cutRead b)) s with
      | .next t => some (t.cell 191)
      | _ => none
    left true = some { value := 11, damage := .intact } ∧ left false = some { value := 11, damage := .oneBit } := by
  decide +kernel

/-- R92, R166: an erased record place whose read does not hold still reads erased, so the stored record is BLANK. -/
theorem test_erased_stays_erased :
    (commissioningRead (loseArea State.cold.array .record)).stored = .erased ∧
      (loseArea State.cold.array (.begins .one)).slot1.begins = .erased := by decide

/-- R163: a reset in the erase of the commissioning sector never leaves the record it held. -/
theorem test_cutRecord :
    cutRecord .kept (.record comm 0) = .checkFailure ∧ cutRecord .kept .erased = .erased ∧
      cutRecord .erased (.record comm 0) = .erased := by decide

/-- R147, R149: a patrol visit whose corrected cell withdraws the lane, and behind it the READ it kept waiting, which meets a
new uncorrectable cell: the SELF_WITHDRAWN frame of the visit's event stands before the ACCESS frame of the READ's grant. -/
theorem test_withdrawnFrame_before_access :
    let struck := withDamage 128 .oneBit (withDamage 64 .twoBits home)
    let visits := struck.setPatrol { struck.patrol with cursor := some 2, request := true }
    let s := (withP 767 (inState .forming (withJob (.read 9 .read 64 1 0 1 []) visits))).setHostGrants 4
    (match exec (.patrolVisit []) s with
      | .next t => (t.faults.primary.map FaultFrame.rank, t.faults.secondary.map FaultFrame.rank)
      | _ => (none, none)) = (some 5, some 3) := by
  decide +kernel

/-- R95, R98, R99: where no slot is active and neither is ERASED, the accepted CLOSE that clears the hold starts the pre-erase of
slot 0, the inactive slot, though slot 1 had faulted. -/
theorem test_clearedHold_erases_inactive :
    let s := mapCkpt (fun k => { k with
      hold := true, slot0 := SlotEntry.unknown, slot1 := SlotEntry.unknown, target := .one }) home
    (match exec (.close (req .close [0, 1, 0])) s with
      | .next t => (t.ctl.op, t.ckpt.hold)
      | _ => (none, true)) = (some (.eraseSector .zero 0), false) := by decide +kernel

/-- R164 step 7, R67, R168: the STATE of an APPLY carries the new lane number, also behind a frame handed over before it. -/
theorem test_apply_state_carries_new_lane :
    let two := { comm with lane := 2 }
    let config := inState .config home
    let s := (config.setComm { config.comm with stored := .record two 0 }).hand .one .query
    let told : Outgoing := { lane := 2, frame := .state .standby 0 }
    (match exec (.apply (req .apply [])) s with
      | .next t => (t.ports.one.sending, t.ports.one.first, t.ports.two.sending)
      | _ => (none, [], none)) = (some { lane := 1, frame := .query }, [told], some told) := by decide +kernel

/-- R168: the bytes of a QUERY of lane 2: the lane, kind 2, an empty body. -/
theorem test_outgoing_bytes : ({ lane := 2, frame := .query } : Outgoing).bytes.take 4 = [2, 2, 0, 0] := by decide +kernel

/-! ### WellFormed: one ill-formed term for each check -/

theorem test_wellFormed_body : (Instr.write { tag := 0, body := List.replicate 65536 0, check := 0 }).wellFormed = false := by
  decide +kernel

theorem test_wellFormed_frame :
    (Instr.announce { port := .one, lane := 2, body := List.replicate 65536 0, check := 0 }).wellFormed = false := by
  decide +kernel

theorem test_wellFormed_upset :
    (Instr.patrolVisit [{ cell := 16384, damage := .oneBit }]).wellFormed = false ∧
      (Instr.patrolVisit [{ cell := 16383, damage := .oneBit }]).wellFormed = true := by decide

theorem test_wellFormed_unknownKind :
    (Instr.unknownKind ReqKind.read.code (req .read [0, 0, 1, 0])).wellFormed = false ∧
      (Instr.unknownKind 0 (req .read [0, 0, 1, 0])).wellFormed = true := by decide +kernel

theorem test_wellFormed_place :
    (Instr.checkpointPageProgrammed (some (.record 256 (List.replicate 64 0)))).wellFormed = false ∧
      (Instr.checkpointPageProgrammed (some (.record 0 []))).wellFormed = false := by decide

theorem test_wellFormed_region : WellFormed.region { (table.headD default) with first := 256 } = false := by decide

theorem test_wellFormed_commRecord :
    WellFormed.commRecord { comm with station := 65536 } = false ∧
      WellFormed.commRecord { comm with regions := List.replicate 61 (table.headD default) } = false ∧
      WellFormed.commRecord comm = true := by decide

theorem test_wellFormed_recordPlace :
    (Instr.commissioningProgramDone (some (.record { comm with lane := 256 } 0))).wellFormed = false := by decide

theorem test_wellFormed_commLeft :
    (Instr.commissioningEraseDone (some { record := .record { comm with lane := 256 } 0, lock := .erased, others := false })).wellFormed =
      false := by decide

theorem test_wellFormed_beginField :
    (Instr.beginFieldsProgrammed (some (.whole { generation := 1, cycle := 1, start := 4294967296 }))).wellFormed = false := by
  decide

theorem test_wellFormed_sector :
    (Instr.preEraseSectorErased (some (.data []))).wellFormed = false ∧
      (Instr.preEraseSectorErased (some (.header (.whole { generation := 1, cycle := 1, start := 4294967296 }) .erased
        .erased false))).wellFormed = false := by decide

theorem test_wellFormed_cut :
    (Instr.powerLoss { cut with cuts := List.replicate 17 .kept }).wellFormed = false ∧
      (Instr.powerLoss { cut with ups := [{ cell := 16384, damage := .oneBit }] }).wellFormed = false ∧
      (Instr.powerLoss { cut with read := some (1, { tag := 0, body := List.replicate 65536 0, check := 0 }) }).wellFormed =
        false ∧ (Instr.powerLoss cut).wellFormed = true := by decide +kernel

/-! ### Hypotheses met: the fault store, reports, reads and writes

Each theorem gives, clause by clause and at the ends of the ranges, a state and operands that meet every hypothesis of the
statement it is named after. -/

theorem witness_FaultFrameAndFaultSetsReadTheStore :
    (served home .faultFrame [] ∧ home.faults.primary = none ∧ home.faults.any = false) ∧
      (let s := home.setFaults { home.faults with any := true }
       served s .faultFrame [] ∧ s.faults.primary = none ∧ s.faults.any = true) ∧
      (served (alerted home) .faultFrame [] ∧ (alerted home).faults.primary = some aFrame) ∧
      served home .faultSets [] := by
  decide +kernel

theorem witness_ReleaseFaultMovesTheSecondaryUp :
    (served home .releaseFault [] ∧ home.faults.primary = none) ∧
      (served (alerted home) .releaseFault [] ∧ (alerted home).faults.primary = some aFrame) := by
  decide +kernel

theorem witness_ClearAccruedAndSetAlertMaskWriteTheSets :
    served (alerted home) .clearAccrued [] ∧
      (served home .setAlertMask [0] ∧ ∃ b ∈ [(0 : Byte)], b.toNat = 0 ∨ 21 < b.toNat) ∧
      (served home .setAlertMask [22] ∧ ∃ b ∈ [(22 : Byte)], b.toNat = 0 ∨ 21 < b.toNat) ∧
      (served home .setAlertMask [1, 21] ∧ ∀ b ∈ [(1 : Byte), 21], 1 ≤ b.toNat ∧ b.toNat ≤ 21) ∧
      served home .setAlertMask [] := by
  decide +kernel

/-- A cycle record of cycle `n`. -/
def cycleOf (n : Half) : CycleRecord := home.newRecord { closeAt .signing .notStarted with cycle := n } (some 77) none

def withHistory (h : List CycleRecord) (s : State) : State := s.setLane { s.lane with history := h }

theorem witness_CycleRecordGivesTheNewestRecord :
    let s := withHistory [cycleOf 3, cycleOf 3, cycleOf 4] home
    (served home .cycleRecord [] ∧ home.lane.history = []) ∧
      (served s .cycleRecord [] ∧ s.lane.history = [cycleOf 3, cycleOf 3] ++ [cycleOf 4]) ∧
      (served s .cycleRecord [0, 5] ∧ ∀ x ∈ s.lane.history, x.cycle ≠ half 0 5) ∧
      (served s .cycleRecord [0, 3] ∧ s.lane.history = [cycleOf 3] ++ cycleOf 3 :: [cycleOf 4] ∧
        (cycleOf 3).cycle = half 0 3 ∧ ∀ y ∈ [cycleOf 4], y.cycle ≠ half 0 3) := by
  decide +kernel

theorem witness_StatusRequestsShowThePart : served home .status [] ∧ served home .checkpointStatus [] := by
  decide +kernel

/-- The offset 63 with one value, the offset 48 with 16 values, and no value at all. -/
theorem witness_WriteIsCheckedThenPosted :
    served home .write (2 :: 63 :: bytesOfWords [5]) ∧ served home .write (2 :: 48 :: bytesOfWords (List.replicate 16 5)) ∧
      served home .write (2 :: 0 :: bytesOfWords []) := by
  decide +kernel

theorem witness_RefusedReadsChangeNothing :
    served home .read [0, 64, 1, 0] ∧ served home .read [3, 0, 1, 0] ∧ served home .readOn [1] ∧
      home.link.cursor = none := by
  decide +kernel

def withCursor (a w : Nat) (s : State) : State := s.setLink { s.link with cursor := some { addr := a, wrap := w } }

/-- A whole page without wrap; the last cell of a region by READ ON; a wrap group of 8. -/
theorem witness_ReadsServeSoundCells :
    let t := withCursor 127 0 home
    let u := withCursor 5 8 home
    (served home .read [0, 0, 64, 0] ∧ home.hostMay ∧ home.lane.state ≠ .config ∧ home.regionOf 0 = table.head? ∧
      (home.page 0).state = .sound ∧ ∀ a ∈ List.range 64, home.soundAt a) ∧
      (served t .readOn [1] ∧ t.hostMay ∧ t.regionOf (127 / 64) = table.head? ∧ (t.page (127 / 64)).state = .sound ∧
        t.link.cursor = some { addr := 127, wrap := 0 } ∧ t.soundAt 127) ∧
      (served u .readOn [8] ∧ u.hostMay ∧ u.regionOf (5 / 64) = table.head? ∧ (u.page (5 / 64)).state = .sound ∧
        u.link.cursor = some { addr := 5, wrap := 8 } ∧ ∀ a ∈ List.range 8, u.soundAt a) := by
  decide +kernel

theorem witness_ReadOfADamagedCellIsFaultedOrCorrected :
    let all := withPage 2 { pageIn .suspect with suspectAll := true } home
    let one := withDamage 191 .oneBit home
    let two := withCursor 128 0 (withDamage 128 .twoBits home)
    (served all .read [2, 0, 1, 0] ∧ all.hostMay ∧ all.mapped 2 = true ∧ all.isAutoRestore 2 = false ∧
      (all.page 2).state = .suspect ∧ all.forwarded 128 = none ∧ all.inFlight = false ∧ all.xfer.role = .none ∧
      all.faults.primary = none ∧ all.pressure.p + 64 < 512 ∧ (all.page 2).suspectAll = true) ∧
      (served one .read [2, 63, 1, 0] ∧ one.hostMay ∧ one.forwarded 191 = none ∧ (one.page 2).suspectAll = false ∧
        191 ∉ one.suspects ∧ (one.cell 191).damage = .oneBit) ∧
      (served two .readOn [1] ∧ two.link.cursor = some { addr := 128, wrap := 0 } ∧ two.hostMay ∧
        two.forwarded 128 = none ∧ (two.page 2).suspectAll = false ∧ 128 ∉ two.suspects ∧
        (two.cell 128).damage = .twoBits ∧ two.suspects.length < 32 ∧ two.isAutoRestore 2 = false) := by
  decide +kernel

/-- Every region with auto-restore, cell 128 spoiled, page 0 being restored and `l` listed. -/
def offering (l : List Nat) : State :=
  let auto := (withDamage 128 .twoBits home).setComm { home.comm with
    inUse := some { comm with regions := table.map (fun g => { g with autoRestore := true }) } }
  auto.setRest { auto.rest with op := .page 0 .zero (some 1) none, list := l }

/-- A READ of cell 128 meets it newly uncorrectable and unrelated to any transfer. -/
def meetsLost (s : State) : Bool :=
  decide (served s .read [2, 0, 1, 0] ∧ s.hostMay ∧ s.lane.state ≠ .config ∧ s.mapped 2 = true ∧
    (s.page 2).state = .sound ∧ s.forwarded 128 = none ∧ s.inFlight = false ∧ s.xfer.role = .none) &&
  decide (s.faults.primary = none ∧ s.faults.secondary = none ∧ s.pressure.p + 96 < 512 ∧ (s.page 2).suspectAll = false ∧
    128 ∉ s.suspects ∧ (s.cell 128).damage = .twoBits)

/-- An offer is taken, an offer finds its page listed, an offer finds 64 pages listed, and, without auto-restore, the suspect
list is full. -/
theorem witness_ReadOfADamagedCell_offers :
    let full := (withDamage 128 .twoBits home).setSuspects (List.range' 300 32)
    (meetsLost (offering (List.replicate 63 1)) ∧ (offering []).isAutoRestore 2 = true ∧ (offering []).rest.op ≠ .none) ∧
      (meetsLost (offering [2]) ∧ 2 ∈ (offering [2]).rest.list) ∧
      (meetsLost (offering (List.replicate 64 1)) ∧ (offering (List.replicate 64 1)).rest.list.length = 64) ∧
      (meetsLost full ∧ full.suspects.length = 32 ∧ full.isAutoRestore 2 = false) := by
  decide +kernel

theorem witness_ExchangeAnswersTheOldValueAndPosts :
    let queued := withEntries [entry 2 63 0 false] false home
    let listed := withPage 2 (pageIn .suspect) (home.setSuspects [128])
    let busy := withPage 2 (pageIn .restoring) home
    (served home .exchange [2, 64, 0, 0, 0, 1] ∧ 63 < (64 : Byte).toNat) ∧
      (served queued .exchange [2, 63, 0, 0, 0, 1] ∧ queued.mapped 2 = true ∧ (queued.page 2).state = .sound ∧
        queued.forwarded 191 = some 5) ∧
      (served listed .exchange [2, 0, 0, 0, 0, 1] ∧ listed.forwarded 128 = none ∧ listed.hostMay ∧ 128 ∈ listed.suspects) ∧
      (served home .exchange [2, 0, 0, 0, 0, 1] ∧ home.forwarded 128 = none ∧ home.hostMay ∧
        (home.page 2).suspectAll = false ∧ 128 ∉ home.suspects ∧ (home.cell 128).damage = .intact) ∧
      (served busy .exchange [2, 0, 0, 0, 0, 1] ∧ busy.forwarded 128 = none ∧ (busy.page 2).state = .restoring) := by
  decide +kernel

theorem witness_HeldExchangeReadsAndPosts :
    let sound := withJob (.exchange 9 2 63 1 1 true []) home
    let listed := sound.setSuspects [191]
    (poised sound ∧ sound.link.live = true ∧ (sound.page 2).state ≠ .restoring ∧ sound.hostMay ∧
      sound.forwarded 191 = none ∧ 191 ∉ sound.suspects ∧ (sound.cell 191).damage = .intact) ∧
      (poised listed ∧ listed.hostMay ∧ listed.forwarded 191 = none ∧ 191 ∈ listed.suspects) := by
  decide +kernel

theorem witness_FillIsCheckedAndWaits :
    (served home .fill [16, 0, 0, 0, 1] ∧ 15 < (16 : Byte).toNat) ∧
      (served (inState .active home) .fill [15, 0, 0, 0, 1] ∧ (inState .active home).lane.state ≠ .standby) ∧
      (served home .fill [15, 0, 0, 0, 1] ∧ home.regions.find? (fun x => x.number == 15) = none) ∧
      (served home .fill [2, 0, 0, 0, 1] ∧ home.regions.find? (fun x => x.number == 2) = table.getLast?) := by
  decide +kernel

/-! ### Hypotheses met: steps, invariants, wire, power -/

theorem witness_StepRunsTheFrontCommand : (home.setPending [.drain]).pending = .drain :: [] := rfl

theorem witness_EmptyQueueIdlesAndWordsSpellNothing : home.pending = [] := rfl

/-- A state with true lines, tables in form and bounds kept, whose step answers a next state. -/
theorem witness_EveryStepKeeps :
    let s := home.setPending [.query (rx .one .query)]
    s.settledOutputs ∧ s.imageWf = true ∧ s.pagesWf = true ∧ s.bounded ∧ ∃ t, step s = .next t :=
  ⟨by decide +kernel, by decide +kernel, by decide +kernel, by decide +kernel, _, rfl⟩

theorem witness_LaneFramesDecodeAsSent :
    (∀ q m cells, LaneFrame.page 255 8 (List.replicate 64 0) = .page q m cells → cells.length = 64) ∧
      (∀ b, Reason.timeout ≠ .other b) := by
  refine ⟨?_, ?_⟩
  · intro q m cells h
    cases h; rfl
  · intro b h
    cases h

theorem witness_RequestsDecodeAsSent : WellFormed.commRecord comm = true := by decide

theorem witness_PowerOnAndPowerLossClearTheBlocks :
    State.cold.phase = .off ∧ home.phase ≠ .off ∧ (home.ctl.op = none ∧ home.ctl.suspended = none) ∧
      (let s := withOp (.programPage .one 255 []) home
       s.ctl.op = some (.programPage .one 255 []) ∧ s.ctl.suspended = none ∧ cut.whole = false) ∧
      (withOp (.programCompletion .zero) home).ctl.op = some (.programCompletion .zero) := by decide

theorem witness_LaneResetKeepsImageJournalAndArray :
    let visit := home.setPatrol { home.patrol with cursor := some 2, request := true }
    let all : Cut := { cut with torn := List.replicate 64 true, ups := [{ cell := 191, damage := .oneBit }] }
    let u := (visit.strike all.ups).readBegun all.read
    State.reset.phase = .startUp ∧ home.phase = .running ∧ home.grantWrites = [] ∧ State.cold.phase = .off ∧
      (home.setPhase .held).phase = .held ∧
      (visit.phase = .running ∧ u.pick = some .patrol ∧ visit.patrol.cursor = some 2 ∧ visit.mapped 2 = true ∧
        visit.visitable 2 = true ∧ 191 ∉ visit.suspects ∧ (u.cell (2 * 64 + 63)).damage = .oneBit) := by
  decide +kernel

theorem witness_StartUpReadsRecordAndHeaders :
    let s := State.reset
    s.phase = .startUp ∧ s.pages = [] ∧ s.queue = State.cold.queue ∧ s.patrol = State.cold.patrol ∧
      s.pressure = State.cold.pressure ∧ s.lane = State.cold.lane ∧ s.ckpt = State.cold.ckpt ∧ s.rest = State.cold.rest ∧
      s.xfer = State.cold.xfer ∧ s.faults = State.cold.faults ∧ s.comm = State.cold.comm ∧ s.pins = State.cold.pins ∧
      s.quiet ∧ s.link.job = none ∧ s.link.second = none ∧ s.array.slot0 = SlotStore.blank ∧
      ({ s.ckpt with slot0 := emptySlot, slot1 := emptySlot }.slot .zero).state = .erased ∧
      (let begun := { SlotStore.blank with begins := .whole { generation := 4, cycle := 3, start := 1 } }
       let t := s.setArray { s.array with slot0 := begun, slot1 := begun }
       t.phase = .startUp ∧ t.ckpt = State.cold.ckpt ∧ (headerEntry t.array.slot0).state = .invalid ∧
         ({ t.ckpt with slot0 := headerEntry begun, slot1 := headerEntry begun } : Checkpoint).inactive = .zero) := by
  decide

theorem witness_ChipSelectOpensAndEndsIntervals :
    (State.reset.link.hcsLow = false ∧ State.reset.link.phase = .idle ∧ State.reset.phase = .startUp) ∧
      (State.cold.link.hcsLow = false ∧ State.cold.phase = .off) ∧ home.link.hcsLow = true ∧
      (home.setLink { home.link with phase := .replying }).link.phase = .replying ∧
      (let r : Reply := { kind := 1, tag := 9, status := .ok, summary := none, body := .empty }
       let s := home.setLink { home.link with phase := .replying, reply := some r }
       s.link.hcsLow = true ∧ s.phase = .running ∧ s.link.reply = some r) := by decide

theorem witness_RequestsThatFailTheLinkTestsHaveNoEffect :
    let starting := State.reset.setLink { State.reset.link with phase := .receiving }
    (home.link.phase = .receiving ∧ home.settledOutputs ∧
      ({ tag := 0, body := [], check := 0 } : Request).check ≠ frameCheck [1, 0, 0, 0]) ∧
      (starting.link.phase = .receiving ∧ starting.settledOutputs ∧ requestSound 1 (req .read [0, 0, 1, 0]) = true) ∧
      (home.link.job = none ∧ ReqKind.ofCode 0 = none) ∧
      (home.still ∧ home.link.second = none ∧ requestSound 6 (req .close [0, 1]) = true ∧
        ReqKind.close.fits [0, 1] = false) ∧
      (starting.link.second = none ∧ starting.phase ≠ .running) := by
  decide +kernel

/-- A body of 257 bytes, one past the limit, in a frame whose check is right. -/
theorem witness_RequestsThatFailTheLinkTestsHaveNoEffect_long :
    requestSound ReqKind.setAlertMask.code (req .setAlertMask (List.replicate 257 1)) = true ∧
      256 < (List.replicate 257 (1 : Byte)).length :=
  ⟨makeRequest_sound .setAlertMask _ _, by decide +kernel⟩

/-! ### Hypotheses met: fills, drains, patrol, pressure -/

theorem witness_FillPageWritesOnePage :
    let s := withJob (.fill 9 3 [2, 3] [2, 3]) home
    let t := withJob (.fill 9 3 [2, 3] [3]) home
    (poised s ∧ s.inFlight = false ∧ s.hostMay ∧ s.queue.entries = []) ∧
      (poised t ∧ t.inFlight = false ∧ t.hostMay ∧ t.queue.entries = [] ∧ t.link.live = true) ∧
      (let u := t.setLink { t.link with live := false }
       poised u ∧ u.hostMay ∧ u.link.live = false) := by
  decide +kernel

/-- A head entry of page `p` that a run drains; `rest` waits behind it. -/
def drainingOf (p : Nat) (rest : List Entry) (s : State) : State := withEntries (entry p 0 0 false :: rest) true s

/-- By age at T exactly, by a run, and as a closing entry behind which another closing entry stands. -/
theorem witness_DrainWritesTheHeadEntry :
    let aged := withEntries [entry 2 63 5 false] false home
    let run := withEntries [entry 2 0 0 false, entry 2 1 0 false] true home
    let closing := withClose (closeAt .draining .notStarted)
      (withEntries [entry 2 0 0 true, entry 2 1 0 true] false home)
    let due (s : State) : Prop := poised s ∧ s.inFlight = false ∧ s.hostReadWaits = false ∧ s.fillWaits = false ∧
      s.hostMay ∧ s.xfer.role = .none ∧ s.mapped 2 = true ∧ (s.page 2).state = .sound ∧ (s.page 2).uncaptured = false
    (due aged ∧ aged.holdStands = false ∧ aged.holdTime = 5 ∧ aged.lane.close = none) ∧
      (due run ∧ run.holdStands = false ∧ run.queue.run = true ∧ run.lane.close = none) ∧
      (due closing ∧ ∃ x ∈ [entry 2 1 0 true], x.closing = true) := by
  decide +kernel

/-- A drain into page `p` that a run makes due. -/
def runsInto (s : State) (p : Nat) : Bool :=
  decide (poised s ∧ s.hostReadWaits = false ∧ s.fillWaits = false ∧ s.hostMay ∧ s.mapped p = true) &&
    decide ((s.page p).state = .sound ∧ (s.page p).uncaptured = false ∧ s.queue.run = true ∧ s.holdStands = false)

/-- A donor that has sent pages 0 and 1, with a drain of page 1 due. -/
def donorDrains (plan resend : List Nat) : State := drainingOf 1 [entry 2 1 0 false]
  (withXfer (fun t => { t with sent := [0, 1] }) (donor plan resend (decide (plan = []))))

/-- A receiver that has received `l`, likewise. -/
def receiverDrains (l : List Nat) : State := drainingOf 1 [entry 2 1 0 false]
  (withXfer (fun t => { t with received := l }) (inState .joining (receiver .receiving home)))

/-- The last closing entry, in front of a held one; a donor below the 17th page owed, at it, and one still in its pass; a
receiver that has received the page and one that has not. -/
theorem witness_DrainWritesTheHeadEntry_sets_off :
    let closing := withClose (closeAt .draining .notStarted)
      (withEntries [entry 2 0 0 true, entry 2 1 0 false] false home)
    (poised closing ∧ closing.hostMay ∧ closing.lane.close = some (closeAt .draining .notStarted) ∧
      closing.signPlan ≠ [] ∧ closing.xfer.role = .none ∧ closing.mapped 2 = true) ∧
      (runsInto (donorDrains [] (List.range' 2 15)) 1 ∧ (setAdd 1 (List.range' 2 15)).length = 16) ∧
      (runsInto (donorDrains [] (List.range' 2 16)) 1 ∧ (setAdd 1 (List.range' 2 16)).length = 17 ∧
        (donorDrains [] (List.range' 2 16)).closingPassRuns = false) ∧
      runsInto (donorDrains [5] (List.range' 2 16)) 1 ∧
      (runsInto (receiverDrains [1]) 1 ∧ (receiverDrains [1]).xfer.role = .receiver .receiving) ∧
      runsInto (receiverDrains [0]) 1 := by
  decide +kernel

theorem witness_DrainDiscardsBreaksAndAges :
    let e := entry 3 0 0 false
    let s := withEntries [e, entry 2 1 0 false] true home
    let aged := withEntries [entry 2 0 5 false, entry 2 1 4 false] false home
    let recorded (n next : Nat) : State := (drainingOf 1 [entry 2 1 0 false] home).setJournal { home.journal with
      state := .recording, next := next, records := List.replicate n { sequence := 1, page := 0, offset := 0, values := [] } }
    let full := (drainingOf 1 [entry 2 1 0 false] (capturing home)).setJournal { (recorded 1024 9).journal with start := some 5 }
    (poised s ∧ s.hostReadWaits = false ∧ s.fillWaits = false ∧ s.hostMay ∧ s.holdStands = false ∧ s.queue.run = true ∧
      (s.page e.page).state = .unset ∧ s.lane.close = none) ∧
      (recorded 895 9).journal.records.length = 895 ∧ (recorded 3 0).journal.next = 0 ∧
      ((recorded 1024 9).journal.records.length = 1024 ∧ (recorded 1024 9).journal.start = none) ∧
      (runsInto (recorded 3 0) 1 ∧ (recorded 3 0).isJournalled 1 = true ∧ (recorded 3 0).roomFor 16 ∧
        (recorded 3 0).xfer.role = .none) ∧ (runsInto full 1 ∧ full.inFlight = true) ∧
      (let j (old new : Nat) : Journal := { (recorded 0 2000).journal with
         start := some 5
         records := List.replicate old { sequence := 4, page := 0, offset := 0, values := [] } ++
           List.replicate new { sequence := 5, page := 0, offset := 0, values := [] } }
       let kept (j : Journal) : Nat := (j.records.filter (fun x => decide (5 ≤ x.sequence))).length
       ((j 1 1023).records.length = 1024 ∧ kept (j 1 1023) = 1023) ∧ (j 129 895).records.length = 1024 ∧
         kept (j 129 895) = 895 ∧ (j 0 1024).records.length = 1024 ∧ kept (j 0 1024) = 1024) ∧
      (aged.queue.entries = [entry 2 0 5 false] ++ entry 2 1 4 false :: [] ∧ aged.holdTime = 5) := by
  decide +kernel

theorem witness_TimersExpire :
    let s := home.setPatrol { home.patrol with timer := some 20 }
    let t := home.setPressure { p := 1, timer := some 10 }
    s.patrol.timer = some 20 ∧ t.settledOutputs ∧ t.pressure.timer = some 10 ∧ t.pressure.p ≠ 0 := by decide

theorem witness_PaceFollowsPressure :
    let t := home.setPressure { p := 1022, timer := some 10 }
    t.settledOutputs ∧ t.pressure.timer = some 10 ∧ t.pressure.p ≠ 0 ∧ t.pressure.p < 1023 := by decide

/-- A patrol visit is due with the cursor at a page. -/
def patrolAt (p : Nat) (s : State) : State := s.setPatrol { s.patrol with cursor := some p, request := true }

/-- Page 2 of a region with auto-restore, while another page's restore is in hand. -/
def autoRestored (s : State) : State :=
  (s.setRest { s.rest with op := .page 0 .zero none none }).setComm { s.comm with
    inUse := some { comm with regions := table.map (fun r => { r with autoRestore := true }) } }

/-- No cursor, and no page to visit; page 2 with one, with four and with no room for new cells, with a correctable cell, wholly
suspect, and with auto-restore; and page 0 reached from page 3, past page 2. -/
theorem witness_PatrolVisitsThePageAtItsCursor :
    let s := patrolAt 2 home
    let bad := withDamage 191 .twoBits s
    let full := bad.setSuspects ((List.range 32))
    let due (t : State) := poised t ∧ t.pick = some .patrol
    due (home.setPatrol { home.patrol with request := true }) ∧ due (s.setPages []) ∧
      (∀ p, p < 4 → ((s.setPages []).page p).state = .unset) ∧
      (due s ∧ s.mapped 2 = true ∧ (s.page 2).state = .sound) ∧
      (due bad ∧ due full ∧ due (withDamage 190 .oneBit bad) ∧
        (bad.cell 191).damage = .twoBits ∧ bad.inFlight = false ∧ bad.xfer.role = .none ∧ bad.faults.primary = none ∧
        bad.patrol.pace = 0 ∧ bad.pressure.p + 64 < 512 ∧ full.pressure.p + 96 < 512 ∧ 191 ∉ full.suspects) ∧
      (let whole := bad.setPages [(2, { pageIn .suspect with suspectAll := true })]
       due whole ∧ (whole.page 2).suspectAll = true) ∧
      (due (autoRestored bad) ∧ (autoRestored bad).isAutoRestore 2 = true ∧ (autoRestored bad).rest.op ≠ .none) ∧
      (let past := patrolAt 3 home
       due past ∧ past.mapped 0 = true ∧ (past.page 0).state = .sound ∧ (past.page 3).state = .unset) := by
  decide +kernel

/-! ### Hypotheses met: closes, signatures, lane agreement -/

theorem witness_CloseIsCheckedThenTaken :
    let config := inState .config home
    let closing := withClose (closeAt .signing .notStarted) home
    let active := inState .active home
    let busy := mapCkpt (fun k => { k with state := .erasing }) home
    let queued := withEntries [entry 2 0 0 false] false home
    (served home .close [0, 1, 2] ∧ 1 < (2 : Byte).toNat) ∧
      (served config .close [0, 1, 0] ∧ config.lane.state = .config) ∧
      (served closing .close [0, 1, 0] ∧ closing.lane.close ≠ none) ∧
      (served active .close [255, 255, 0] ∧ half 255 255 ≠ active.lane.lastClosed + 1) ∧
      (served busy .close [0, 1, 1] ∧ busy.ckpt.state ≠ .idle ∧ busy.lane.close = none) ∧
      (served queued .close [0, 1, 0] ∧ queued.queue.entries ≠ [] ∧ queued.ckpt.hold = false) ∧
      (let faulty := mapCkpt (fun k => { k with hold := true, slot0 := SlotEntry.unknown, target := .zero }) home
       served faulty .close [0, 1, 0] ∧ served faulty .close [0, 1, 1] ∧ faulty.ckpt.hold = true ∧
         faulty.ckpt.state = .idle ∧ faulty.ctl.op = none ∧ faulty.signPlan ≠ [] ∧
         (faulty.ckpt.slot faulty.ckpt.inactive).state = .erased) ∧
      (let neither := mapCkpt (fun k => { k with
          hold := true, slot0 := SlotEntry.unknown, slot1 := SlotEntry.unknown, target := .one }) home
       served neither .close [0, 1, 0] ∧ neither.ckpt.hold = true ∧ neither.ckpt.state = .idle ∧ neither.ctl.op = none ∧
         neither.ckpt.inactive = .zero ∧ (neither.ckpt.slot .zero).state = .invalid) ∧
      (served active .close [0, 1, 1] ∧ half 0 1 = active.lane.lastClosed + 1 ∧ active.queue.entries = [] ∧
        active.signPlan ≠ [] ∧ active.ckpt.state = .idle ∧ active.ckpt.hold = false ∧
        (active.ckpt.slot active.ckpt.inactive).state = .erased) := by
  decide +kernel

/-- A region of one page; the largest pair. -/
theorem witness_SignaturesFeedRegionsInOrder :
    (255 : Nat) ≤ 255 ∧ (65518 : Nat) ≤ 65518 ∧ (table.headD default).first ≤ (table.headD default).last := by decide

/-- A close of cycle 1 whose pass stands before the listed steps. -/
def signing (todo : List SignStep) (s : State) : State :=
  (withClose { closeAt .signing .notStarted with signature := none } s).setSign { a := 1, b := 300, results := [], todo := todo }

/-- Both peers FORMING and lane state `x`. -/
def amongPeers (x : LaneState) (s : State) : State :=
  (inState x s).mapPeers (fun p => { p with known := some .forming })

theorem witness_SignaturePassFeedsAndEnds :
    let first := signing [signOf 0, signOf 1] home
    let last := signing [signOf 1] home
    let voting := signing [signOf 1] (amongPeers .forming home)
    let stopped := signing [signOf 1] (withPage 1 (pageIn .suspect) home)
    let asks (s : State) : Prop := poised s ∧ s.passWaits = true ∧ s.pick = some .signature ∧ s.xfer.role = .none
    (asks first ∧ (first.page 0).state = .sound ∧ ∀ o ∈ List.range 64, (first.cell o).damage = .intact) ∧
      (asks last ∧ last.lane.state = .standby ∧ (last.page 1).state = .sound ∧
        ∀ o ∈ List.range 64, (last.cell (64 + o)).damage = .intact) ∧
      (asks voting ∧ voting.lane.state = .forming ∧ voting.lane.peer1.missing = true ∧
        ∀ o ∈ List.range 64, (voting.cell (64 + o)).damage = .intact) ∧
      (asks stopped ∧ stopped.lane.state = .standby ∧ (stopped.page 1).state = .suspect) := by
  decide +kernel

/-- A corrected cell, a new uncorrectable one, a stop in FORMING below and at the abstain limit. -/
theorem witness_SignaturePassFeedsAndEnds_stops :
    let asks (s : State) : Prop := poised s ∧ s.passWaits = true ∧ s.pick = some .signature ∧ s.xfer.role = .none
    let marred := withDamage 63 .oneBit (signing [signOf 0, signOf 1] home)
    let lost := withDamage 127 .twoBits (signing [signOf 1] home)
    let forming (n : Nat) : State :=
      let s := signing [signOf 1] (withPage 1 (pageIn .suspect) (amongPeers .forming home))
      s.setLane { s.lane with abstain := n }
    (asks marred ∧ (marred.cell 63).damage = .oneBit ∧ (∀ o ∈ List.range 63, (marred.cell o).damage = .intact)) ∧
      (asks lost ∧ (lost.page 1).state = .sound ∧ (lost.cell (64 + 63)).damage = .twoBits ∧
        (∀ o ∈ List.range 63, (lost.cell (64 + o)).damage = .intact) ∧ (lost.page 1).suspectAll = false ∧
        127 ∉ lost.suspects ∧ lost.isAutoRestore 1 = false ∧ lost.inFlight = false ∧ lost.faults.primary = none) ∧
      (asks (forming 1) ∧ (forming 1).abstainLimit = 3 ∧ (forming 1).lane.peer1.missing = true ∧
        (forming 1).pressure.p + 16 < 512 ∧ ((forming 1).page 1).state = .suspect) ∧
      (asks (forming 2) ∧ (forming 2).abstainLimit = min 7 ((forming 2).lane.abstain + 1)) := by
  decide +kernel

/-- The last page of a close with checkpoint, of a donor that owes 16 pages, and of a vote that waits for nobody. -/
theorem witness_SignaturePassFeedsAndEnds_ends :
    let asks (s : State) : Prop := poised s ∧ s.passWaits = true ∧ s.pick = some .signature
    let sound (s : State) : Prop := (s.page 1).state = .sound ∧ ∀ o ∈ List.range 64, (s.cell (64 + o)).damage = .intact
    let plain := signing [signOf 1] home
    let both := plain.setLane { plain.lane with
      close := some { closeAt .signing .notStarted with signature := none, withCheckpoint := true } }
    let gives := signing [signOf 1] ((donor [] (List.range' 2 16) true).mapPeers (fun p => { p with known := some .active }))
    let alone := signing [signOf 1] (inState .active home)
    (asks both ∧ sound both ∧ both.xfer.role = .none ∧ both.pagesWf = true ∧ both.uncapturedPages = [] ∧
      both.ckpt.state = .idle ∧ (both.ckpt.slot both.ckpt.inactive).state = .erased ∧
      both.ckpt.highest ≠ BitVec.allOnes 32 ∧ both.ctl.op = none ∧
      (∀ q ∈ List.range 256, both.isCheckpointed q = true → (both.page q).state ≠ .suspect) ∧
      both.isCheckpointed 1 = true ∧ (both.page 1).state ≠ .unset) ∧
      (asks gives ∧ sound gives ∧ gives.xfer.role = .donor ∧ gives.lane.state = .active ∧
        gives.lane.peer1.missing = true ∧ gives.xfer.owed.length = 16) ∧
      (asks alone ∧ sound alone ∧ alone.xfer.role = .none ∧ alone.lane.peer1.missing = false ∧
        alone.lane.peer2.missing = false ∧ alone.pressure.p + 128 < 512) := by
  decide +kernel

theorem witness_EnterQueriesThenForms :
    let asking := withXfer (fun x => { x with role := .receiver .asking }) home
    let unset := withPage 0 PageRec.fresh home
    let stale := withPage 1 (pageIn .stale) home
    let window (b : Bool) : State := (withJob (.enter 9) home).setLane { home.lane with query := some b }
    (served (inState .active home) .enter [] ∧ (inState .active home).lane.state ≠ .standby) ∧
      (served (withClose (closeAt .signing .notStarted) home) .enter []) ∧
      (served asking .enter [] ∧ asking.xfer.role = .receiver .asking) ∧
      (served (withP 384 home) .enter [] ∧ (withP 383 home).pressure.p < 384) ∧
      (served unset .enter [] ∧ unset.isSigned 0 = true ∧ (unset.page 0).state = .unset) ∧
      (served stale .enter [] ∧ stale.isSigned 1 = true ∧ (stale.page 1).state = .stale ∧ (stale.page 0).state = .sound ∧
        ∀ q ∈ List.range 256, stale.isSigned q = true → (stale.page q).state ≠ .unset) ∧
      (served home .enter [] ∧ ∀ q ∈ List.range 256, home.isSigned q = true → (home.page q).state = .sound) ∧
      (poised (window true) ∧ (window true).lane.query = some true ∧ (window true).link.live = true) ∧
      (poised (window false) ∧ (window false).lane.query = some false ∧ (window false).pressure.p < 768) := by
  decide +kernel

theorem witness_WithdrawAndRestartMoveTheLane :
    let voting := withClose (closeAt .closed .running) (inState .active home)
    (served (inState .forming home) .withdraw [] ∧ home.lane.close = none ∧ home.xfer.role = .none) ∧
      (served voting .withdraw [] ∧ voting.lane.close = some (closeAt .closed .running)) ∧
      served (inState .config home) .withdraw [] ∧ served (inState .halted home) .withdraw [] ∧
      served home .withdraw [] ∧ served (inState .excluded home) .withdraw [] ∧
      served (inState .forming home) .restart [] ∧ served (inState .excluded home) .restart [] ∧
      served (inState .halted home) .restart [] ∧ served (inState .config home) .restart [] ∧
      served home .restart [] ∧ served (inState .active home) .restart [] := by
  decide +kernel

/-- A donor in ACTIVE; an ask in STANDBY and in EXCLUDED; a join in JOINING that receives and one that checks; an undecided
vote in FORMING. -/
theorem witness_WithdrawAndRestartMoveTheLane_joins :
    let gives := donor [0] [] false
    let asks (x : LaneState) : State := inState x (receiver .asking home)
    let joins (x : RxPhase) : State := withXfer (fun t => { t with checkBegun := decide (x = .checking) })
      (inState .joining (receiver x home))
    let voting := withClose (closeAt .closed .running) (inState .forming home)
    (served gives .withdraw [] ∧ gives.lane.state = .active ∧ gives.lane.close = none ∧
      gives.xfer.partner = some (2, .one) ∧ gives.roomFor 16) ∧
      (served (asks .standby) .withdraw [] ∧ (asks .standby).xfer.partner = some (2, .one) ∧ (asks .standby).roomFor 16) ∧
      served (asks .excluded) .withdraw [] ∧ served (asks .excluded) .restart [] ∧
      (served (joins .receiving) .withdraw [] ∧ served (joins .receiving) .restart [] ∧
        (joins .receiving).xfer.role = .receiver .receiving ∧ (joins .receiving).roomFor 16) ∧
      (served (joins .checking) .withdraw [] ∧ served (joins .checking) .restart [] ∧
        (joins .checking).xfer.role = .receiver .checking) ∧
      (served voting .restart [] ∧ voting.lane.state = .forming ∧ voting.lane.close = some (closeAt .closed .running)) := by
  decide +kernel

theorem witness_VoteOutcomesFollowTheTables : (8 : Word) ≠ 7 ∧ (9 : Word) ≠ 7 ∧ (8 : Word) ≠ 9 := by decide

theorem witness_VoteWindowExpiryDecidesTheVote :
    let s := withHistory [cycleOf 1] (withClose (closeAt .closed .running) (amongPeers .active home))
    let t := s.setLane { s.lane with window := some 40 }
    poised t ∧ t.xfer.role = .none ∧ t.lane.close = some (closeAt .closed .running) ∧ t.lane.window.isSome = true ∧
      t.lane.history ≠ [] ∧ t.lane.state = .active ∧ t.pressure.p + 144 < 512 ∧ (t.lane.peer .one).missing = true ∧
      t.faults.primary = none := by
  decide +kernel

/-- At a MAJORITY of an ACTIVE lane the peer on port 2 differs, and at an AGREE the peer on port 2 is missing. -/
theorem witness_VoteWindowExpiryDecidesTheVote_outcomes :
    let s := withHistory [cycleOf 1] (withClose (closeAt .closed .running) (amongPeers .active home))
    let gives (g : Word) (p : Peer) : Peer :=
      { p with pending := some { cycle := 1, state := some .active, signature := some g, abstain := false } }
    let agree := (s.setLane { s.lane with window := some 40 }).mapPeer .one (gives 77)
    let differ := agree.mapPeer .two (gives 78)
    let voted (t : State) := voteOutcome true (some 77) (t.lane.peer1.voteFor 1) (t.lane.peer2.voteFor 1)
    (poised agree ∧ voted agree = .agree ∧ (agree.lane.peer .two).missing = true) ∧
      (poised differ ∧ voted differ = .majority ∧ (differ.lane.peer .two).voteFor 1 = some 78) := by
  decide +kernel

theorem witness_PermitHalfPeriodTurnsTheWave :
    (home.setPins { home.pins with permit := true }).pins.permit = true ∧ home.pins.permit = false := by decide

/-! ### Hypotheses met: checkpoints and restores -/

/-- A snapshot whose begin fields are being programmed, page 1 uncaptured. -/
def snapshot : State :=
  withOp (.programBegin .one { generation := 2, cycle := 1, start := 1 })
    (mapCkpt (fun k => { k with asked := true }) (withPage 1 { pageIn .sound with uncaptured := true } (capturing home)))

theorem witness_CancelCheckpointAbandonsTheSnapshot :
    (served home .cancelCheckpoint [] ∧ home.ckpt.state ≠ .capturing) ∧
      (served snapshot .cancelCheckpoint [] ∧ snapshot.ckpt.state = .capturing ∧ snapshot.pagesWf = true) := by
  decide +kernel

theorem snapshot_uncaptured (q : Nat) (h : q ≠ 1) : (snapshot.page q).uncaptured = false := by
  have : snapshot.pages = [(0, pageIn .sound), (1, { pageIn .sound with uncaptured := true }), (2, pageIn .sound)] := by
    decide +kernel
  simp only [State.page, this, tabGet, h, if_false]
  split
  · rfl
  · split <;> rfl

theorem witness_CaptureTakesOnePage :
    let forced := withEntries [entry 1 0 5 false] false snapshot
    (poised snapshot ∧ snapshot.pagesWf = true ∧ snapshot.pick = some .capture ∧ snapshot.ckpt.asked = true ∧
      (snapshot.page 1).uncaptured = true ∧ (snapshot.page 1).state = .sound ∧ snapshot.forcedPage = none ∧
      ∀ o ∈ List.range 64, (snapshot.cell (64 + o)).damage = .intact) ∧
      (poised forced ∧ forced.pick = some .capture ∧ forced.forcedPage = some 1 ∧
        (forced.page 1).uncaptured = true ∧ forced.pages = snapshot.pages) ∧
      (let bad := withDamage 127 .twoBits snapshot
       poised bad ∧ bad.pick = some .capture ∧ (bad.cell (64 + 63)).damage = .twoBits ∧
         (∀ o ∈ List.range 63, (bad.cell (64 + o)).damage = .intact) ∧ (bad.page 1).suspectAll = false ∧
         127 ∉ bad.suspects ∧ bad.isAutoRestore 1 = false ∧ 1 ∉ bad.rest.list ∧ bad.xfer.role = .none ∧
         bad.faults.primary = none ∧ bad.faults.secondary = none ∧ bad.pressure.p + 96 < 512 ∧
         bad.pages = snapshot.pages) := by
  decide +kernel

/-- A buffered page. -/
def buffered (p : Nat) : BufEntry := { page := p, cells := [], forced := false }

/-- The engine programs page 0 with `more` behind it in the buffer. -/
def programming (more : List BufEntry) : State :=
  withOp (.programPage .one 0 []) (mapCkpt (fun k => { k with begun := true, asked := true, buffer := buffered 0 :: more })
    (capturing home))

theorem witness_EngineProgramsItsSlot :
    let begins := mapCkpt (fun k => { k with buffer := [buffered 0] }) snapshot
    let free (s : State) : Prop := s.ckpt.state = .capturing ∧ s.ctl.waiting = [] ∧ s.ctl.suspended = none
    (poised begins ∧ free begins ∧ (begins.array.slot .one).begins = .erased ∧ begins.ckpt.buffer = buffered 0 :: []) ∧
      (poised (programming [buffered 1]) ∧ free (programming [buffered 1]) ∧
        ((programming [buffered 1]).array.slot .one).place 0 = .erased) ∧
      (poised (programming []) ∧ free (programming []) ∧ (programming []).uncapturedPages = [] ∧
        (programming []).faults.primary = none ∧ (programming []).pressure.p + 32 < 512) ∧
      (let s := withOp (.programBegin .one { generation := 2, cycle := 1, start := 1 }) (programming [])
       poised s ∧ free s ∧ s.uncapturedPages = [] ∧ s.faults.primary = none ∧ s.pressure.p + 32 < 512) := by
  decide +kernel

theorem witness_CompletionMakesTheSlotActive :
    let s (old : SlotEntry) : State := withOp (.programCompletion .one)
      (mapCkpt (fun k => { k with state := .finishing, begun := true, asked := true, slot0 := old }) (capturing home))
    let ends (s : State) : Prop := poised s ∧ s.pagesWf = true ∧ s.ckpt.state = .finishing ∧ s.ckpt.target = .one ∧
      s.ckpt.hold = false ∧ s.ctl.op = some (.programCompletion .one) ∧ s.ctl.waiting = [] ∧ s.ctl.suspended = none ∧
      (s.array.slot .one).completion = .erased
    (ends (s (capturing home).ckpt.slot0) ∧ (capturing home).ckpt.slot0.state = .complete) ∧
      (ends (s SlotEntry.unknown) ∧ SlotEntry.unknown.state = .invalid) ∧ (ends (s emptySlot) ∧ emptySlot.state = .erased) := by
  decide +kernel

theorem witness_PreEraseErasesSectorBySector :
    let erasing (o : ArrayOp) : State := withOp o (mapCkpt (fun k => { k with
      state := .erasing, slot1 := { emptySlot with state := .erasing }, target := .one }) home)
    let free (s : State) : Prop := poised s ∧ s.ckpt.state = .erasing ∧ s.ctl.waiting = [] ∧ s.ctl.suspended = none ∧
      tabWf Place.erased (s.array.slot .one).places = true
    free (erasing (.programAbandon .one)) ∧ free (erasing (.eraseSector .one 0)) ∧ free (erasing (.eraseSector .one 15)) ∧
      (free (erasing (.eraseSector .one 16)) ∧ ((Field.erased : Field BeginFields) ≠ .erased ∨ true = true) ∧
        (erasing (.eraseSector .one 16)).faults.primary = none) ∧
      (let places := List.replicate 15 Place.erased ++ [.checkFailure]
       places.length = 16 ∧ places[15]? = some .checkFailure) := by
  decide +kernel

theorem witness_RestorePageIsCheckedThenListed :
    let suspect := withPage 1 (pageIn .suspect) (withActive home)
    let busy := suspect.setRest { suspect.rest with op := .page 0 .zero (some 1) none }
    let full := busy.setRest { busy.rest with list := List.replicate 64 0 }
    (served home .restorePage [4] ∧ home.mapped 4 = false) ∧ (served home .restorePage [1] ∧ home.ckpt.active = none) ∧
      (served busy .restorePage [1] ∧ busy.isCheckpointed 1 = true ∧ (busy.page 1).state = .suspect ∧
        busy.ckpt.active = some .zero ∧ busy.rest.op ≠ .none ∧ busy.inFlight = false) ∧
      (served full .restorePage [1] ∧ full.rest.list.length = 64 ∧ 1 ∉ full.rest.list) ∧
      (served suspect .restorePage [1] ∧ suspect.rest.op = .none ∧ suspect.ckpt.active = some .zero ∧
        suspect.inFlight = false ∧ suspect.xfer.role = .none ∧ suspect.ctl.op = none) ∧
      served (withOp (.eraseSector .one 3) suspect) .restorePage [1] ∧
      served (withOp .eraseCommissioning suspect) .restorePage [1] ∧
      served (withOp (.programAbandon .one) suspect) .restorePage [1] := by
  decide +kernel

/-- The engine restores page 1 from slot 0, whose place 1 is `v`. -/
def reading (v : Place) : State :=
  withOp (.readPage false .zero 1) (((withPage 1 { pageIn .restoring with suspectAll := true } (withActive home)).setRest
    { home.rest with op := .page 1 .zero (some 1) none }).setArray
    { home.array with slot0 := { SlotStore.blank with places := tabPut .erased [] 1 v } })

theorem witness_PageRestoreReadKeepsOrFails :
    let free (s : State) : Prop := poised s ∧ s.rest.op = .page 1 .zero (some 1) none ∧
      s.ctl.op = some (.readPage false .zero 1) ∧ s.ctl.waiting = [] ∧ s.ctl.suspended = none ∧ s.rest.list = [] ∧
      s.inFlight = false ∧ s.faults.primary = none ∧ s.pressure.p + 32 < 512
    (free (reading (.record 1 [])) ∧ ((reading (.record 1 [])).array.slot .zero).place 1 = .record 1 []) ∧
      (free (reading .erased) ∧ ((reading .erased).array.slot .zero).place 1 = .erased) ∧
      (free (reading .checkFailure) ∧ ((reading .checkFailure).array.slot .zero).place 1 = .checkFailure) ∧
      (free (reading (.record 0 [])) ∧ (0 : Nat) ≠ 1 ∧
        ((reading (.record 0 [])).array.slot .zero).place 1 = .record 0 []) ∧
      (let s := reading (.record 1 [])
       let resumes := s.setCtl { s.ctl with suspended := some (.eraseSector .one 3), waiting := [.eraseCommissioning] }
       poised resumes ∧ resumes.ctl.suspended ≠ none ∧ ∀ o ∈ resumes.ctl.waiting, 3 ≤ o.rank) := by
  decide +kernel

/-- The record of page 1 has been read. -/
def writing (dirty : Bool) : State :=
  ((withPage 1 { pageIn .restoring with suspectAll := true, dirty := dirty } (withActive home)).setRest
    { home.rest with op := .page 1 .zero (some 1) (some (List.replicate 64 3)) })

theorem witness_PageRestoreWritesByTheTable :
    let free (s : State) : Prop := poised s ∧ s.inFlight = false ∧ s.rest.list = [] ∧ s.pick = some .restoreWrite ∧
      s.ckpt.active = some .zero ∧ (s.ckpt.slot .zero).generation = some 1 ∧ s.isCheckpointed 1 = true ∧
      (s.page 1).state = .restoring
    let covered := (writing true).setJournal { home.journal with
      state := .recording, base := some (.zero, some 1), next := 2
      records := [{ sequence := 1, page := 1, offset := 63, values := [4] }] }
    (free (writing false) ∧ (writing false).journal.records = []) ∧
      (free covered ∧ covered.journal.covers .zero (some 1) = true ∧
        ∀ r ∈ covered.journal.records, r.page = 1 → r.offset + r.values.length ≤ 64) ∧
      (free (writing true) ∧ (writing true).isJournalled 1 = true ∧
        (writing true).journal.covers .zero (some 1) = false ∧ ((writing true).page 1).dirty = true ∧
        (writing true).faults.primary = none ∧ (writing true).pressure.p + 32 < 512) := by
  decide +kernel

/-- An image restore from slot 0 with `todo` left. -/
def imaging (todo : List Nat) (cells : Option (List Word)) : ImageRestore :=
  { slot := .zero, generation := some 1, cycle := some 0, replay := false, todo := todo, cells := cells, toDo := 2, done := 0,
    failed := 0, firstFailed := none }

def imageOn (i : ImageRestore) : State :=
  (withPage 0 { pageIn .restoring with suspectAll := true } (withPage 1 { pageIn .restoring with suspectAll := true }
    (withActive home))).setRest { home.rest with op := .image i }

theorem witness_RestoreImageTakesEveryCheckpointedPage :
    let reads := withOp (.readPage true .zero 0) ((imageOn (imaging [0, 1] none)).setArray
      { home.array with slot0 := { SlotStore.blank with places := [(0, .record 0 [])] } })
    let writes := imageOn (imaging [0, 1] (some (List.replicate 64 3)))
    let last := imageOn (imaging [1] (some (List.replicate 64 3)))
    let busy := imageOn (imaging [1] none)
    (served (inState .active home) .restoreImage []) ∧ (served home .restoreImage [] ∧ home.ckpt.active = none) ∧
      (served busy .restoreImage [] ∧ busy.ckpt.active ≠ none ∧ busy.rest.op ≠ .none) ∧
      (served (withActive home) .restoreImage [] ∧ (withActive home).ckpt.active = some .zero ∧
        (withActive home).checkpointedPages = 0 :: [1] ∧ (withActive home).ctl.op = none) ∧
      (poised reads ∧ (reads.page 0).state = .restoring ∧ (reads.array.slot .zero).place 0 = .record 0 []) ∧
      (poised writes ∧ (writes.page 0).state = .restoring ∧ writes.pick = some .restoreWrite ∧ writes.rest.list = [] ∧
        writes.journal.covers .zero (some 1) = false ∧ (writes.page 1).state = .restoring ∧ writes.ctl.op = none) ∧
      (poised last ∧ (last.page 1).state = .restoring ∧ last.pick = some .restoreWrite) := by
  decide +kernel

/-- Replay over a covered slot; a read that fails with a page behind it and as the last; an end with a page failed before. -/
theorem witness_RestoreImage_replays_and_fails :
    let replays := (imageOn (imaging [1] (some (List.replicate 64 3)))).setJournal { home.journal with
      state := .recording, base := some (.zero, some 1), next := 2
      records := [{ sequence := 1, page := 1, offset := 63, values := [4] }] }
    let reads (v : Place) (i : ImageRestore) (p : Nat) : State := withOp (.readPage true .zero p) ((imageOn i).setArray
      { home.array with slot0 := { SlotStore.blank with places := tabPut .erased [] p v } })
    let failed := imageOn { imaging [1] (some (List.replicate 64 3)) with failed := 1, firstFailed := some (0, .array) }
    let free (s : State) : Prop := poised s ∧ s.ctl.waiting = [] ∧ s.ctl.suspended = none ∧ s.inFlight = false ∧
      s.rest.list = [] ∧ s.roomFor 32
    (free replays ∧ replays.pick = some .restoreWrite ∧ replays.isJournalled 1 = true ∧
      replays.journal.covers .zero (some 1) = true ∧
      ∀ r ∈ replays.journal.records, r.page = 1 → r.offset + r.values.length ≤ 64) ∧
      (free (reads .erased (imaging [0, 1] none) 0) ∧
        ((reads .erased (imaging [0, 1] none) 0).array.slot .zero).place 0 = .erased ∧
        ((reads .erased (imaging [0, 1] none) 0).page 1).state = .restoring) ∧
      (free (reads .checkFailure (imaging [1] none) 1) ∧
        ((reads .checkFailure (imaging [1] none) 1).array.slot .zero).place 1 = .checkFailure) ∧
      (free (reads (.record 0 []) (imaging [1] none) 1) ∧ (0 : Nat) ≠ 1 ∧
        ((reads (.record 0 []) (imaging [1] none) 1).array.slot .zero).place 1 = .record 0 []) ∧
      (free failed ∧ failed.pick = some .restoreWrite ∧ (failed.page 1).state = .restoring) := by
  decide +kernel

/-! ### Hypotheses met: join, peers, ports -/

theorem witness_JoinIsCheckedAsksAndFails :
    let busy := receiver .asking home
    let joined := inState .joining (receiver .receiving home)
    (served home .join [0]) ∧ served home .join [4] ∧ (served home .join [1] ∧ home.laneNumber = some 1) ∧
      served (inState .active home) .join [2] ∧ served (withClose (closeAt .signing .notStarted) home) .join [2] ∧
      (served busy .join [2] ∧ busy.xfer.role ≠ .none) ∧ served (withP 384 home) .join [2] ∧
      (served (withP 383 home) .join [2] ∧ expectedLane 1 .one = 2 ∧ home.rest.op = .none ∧ home.inFlight = false) ∧
      (served home .join [3] ∧ expectedLane 1 .two = 3) ∧
      (poised busy ∧ busy.xfer.idle = true ∧ busy.roomFor 16 ∧ busy.lane.state ≠ .joining) ∧
      (poised joined ∧ joined.xfer.role = .receiver .receiving ∧ joined.roomFor 16) ∧ home.xfer.idle = false ∧
      (takes busy .one (.joinRefuse .donorBusy) ∧ busy.xfer.partner = some (2, .one)) ∧
      (takes joined .one (.joinAbort .linkFault) ∧ joined.xfer.partner = some (2, .one)) := by
  decide +kernel

theorem witness_DonorGrantsSendsAndEnds :
    let active := inState .active home
    let sends (s : State) : Prop := poised s ∧ s.pick = some .transferOut ∧ s.xfer.role = .donor ∧
      s.xfer.partner = some (2, .one)
    let unsound := withPage 0 (pageIn .suspect) (donor [0, 1] [] false)
    let closing := withClose (closeAt .closingPass .running) (withXfer (fun t => { t with closing := [1] }) (donor [] [] false))
    (takes home .one .joinAsk ∧ home.lane.state ≠ .active) ∧
      (takes (donor [0] [] false) .two .joinAsk ∧ (donor [0] [] false).lane.state = .active ∧
        (donor [0] [] false).xfer.role ≠ .none) ∧
      (takes (withP 512 active) .one .joinAsk ∧ active.xfer.role = .none) ∧
      (takes (withP 511 active) .one .joinAsk ∧ active.signedPages ≠ [] ∧ active.lane.close = none) ∧
      (sends (donor [0, 1] [] false) ∧ ((donor [0, 1] [] false).page 0).state = .sound ∧
        ∀ o ∈ List.range 64, ((donor [0, 1] [] false).cell o).damage = .intact) ∧
      (sends (donor [0] [] false) ∧ (setDrop 0 (donor [0] [] false).xfer.resend).length ≤ 16) ∧
      (sends unsound ∧ (unsound.page 0).state = .suspect) ∧
      (sends closing ∧ closing.lane.close = some (closeAt .closingPass .running) ∧ closing.xfer.closing = [1] ∧
        (closing.page 1).state = .sound ∧ ∀ o ∈ List.range 64, (closing.cell (64 + o)).damage = .intact) := by
  decide +kernel

theorem witness_DonorGrantsSendsAndEnds_again :
    let closing := withClose (closeAt .closingPass .running) (withXfer (fun t => { t with closing := [1] }) (donor [] [] false))
    let again := withXfer (fun t => { t with retry := [(1, 4)] }) (donor [1] [] false)
    let last := withXfer (fun t => { t with retry := [(1, 3)] }) (donor [] (List.range' 2 15) true)
    let full := donor [] (List.range' 2 16) true
    (takes again .one (.pageAgain 3) ∧ again.isSigned 3 = false) ∧
      (takes last .one (.pageAgain 1) ∧ last.isSigned 1 = true ∧ last.xfer.retryOf 1 + 1 ≤ last.retryLimit ∧
        last.closingPassRuns = false ∧ (setAdd 1 last.xfer.resend).length = 16) ∧
      (takes full .one (.pageAgain 1) ∧ full.xfer.plan = [] ∧ (setAdd 1 full.xfer.resend).length = 17 ∧
        full.xfer.pass < 8) ∧
      (takes closing .one (.pageAgain 0) ∧ closing.closingPassRuns = true ∧ closing.isSigned 0 = true) ∧
      (takes again .one (.pageAgain 1) ∧ again.retryLimit < again.xfer.retryOf 1 + 1 ∧
        again.closingPassRuns = false ∧ again.roomFor 16) ∧
      (takes again .one (.joinAbort .timeout) ∧ again.xfer.partner = some (2, .one)) := by
  decide +kernel

/-- Passes 7 and 8 with 17 pages owed after the last page of the plan, and after a PAGE-AGAIN; a closing page that cannot be sent
in either pass; ends of a donation during a closing pass. -/
theorem witness_DonorGrantsSendsAndEnds_limits :
    let sends (s : State) : Prop := poised s ∧ s.pick = some .transferOut ∧ s.xfer.partner = some (2, .one) ∧ s.roomFor 16
    let inPass (n : Nat) (s : State) : State := withXfer (fun t => { t with pass := n }) s
    let owing (n : Nat) : State := inPass n (donor [0] (List.range' 2 17) false)
    let full (n : Nat) : State := inPass n (donor [] (List.range' 2 16) true)
    let closing (n : Nat) : State := withClose (closeAt .closingPass .running)
      (withXfer (fun t => { t with closing := [0, 1], retry := [(1, 4)] })
        (withPage 0 (pageIn .suspect) (inPass n (donor [] [] false))))
    (sends (owing 7) ∧ (owing 7).xfer.pass < 8 ∧ (setDrop 0 (owing 7).xfer.resend).length = 17) ∧
      (sends (owing 8) ∧ 8 ≤ (owing 8).xfer.pass) ∧
      (takes (full 8) .one (.pageAgain 1) ∧ (setAdd 1 (full 8).xfer.resend).length = 17 ∧ (full 8).roomFor 16) ∧
      (sends (closing 7) ∧ (closing 7).xfer.closing = 0 :: [1] ∧ ((closing 7).page 0).state = .suspect) ∧
      (sends (closing 8) ∧ 8 ≤ (closing 8).xfer.pass) ∧
      (takes (closing 1) .one (.pageAgain 1) ∧ (closing 1).isSigned 1 = true ∧
        (closing 1).retryLimit < (closing 1).xfer.retryOf 1 + 1) ∧
      (takes (closing 1) .one (.joinAbort .timeout) ∧ (closing 1).lane.close = some (closeAt .closingPass .running)) := by
  decide +kernel

/-- A PAGE frame of 64 zero cells. -/
def pageFrame (p : Nat) : LaneFrame := .page p 1 (List.replicate 64 0)

theorem witness_ReceiverTakesGrantAndPages :
    let asking := receiver .asking home
    let busy := withClose (closeAt .signing .notStarted) asking
    let joined := inState .joining (receiver .receiving home)
    let held (n : Nat) : State := withXfer (fun t => { t with
      inbound := List.replicate n { page := 1, cells := List.replicate 64 0 } }) joined
    (takes asking .one (.joinGrant 2) ∧ grantArgs (rx .one (.joinGrant 2)).body = some asking.signedPages.length ∧
      asking.lane.close = none ∧ asking.inFlight = false) ∧
      (takes asking .one (.joinGrant 3) ∧ grantArgs (rx .one (.joinGrant 3)).body ≠ some asking.signedPages.length ∧
        asking.roomFor 16) ∧
      (takes busy .one (.joinGrant 2) ∧ busy.lane.close ≠ none ∧ busy.xfer.role = .receiver .asking) ∧
      (takes (held 3) .one (pageFrame 1) ∧ (held 3).isSigned 1 = true ∧ (held 3).xfer.inbound.length < 4) ∧
      (takes (held 4) .one (pageFrame 1) ∧ 4 ≤ (held 4).xfer.inbound.length) ∧
      (takes joined .one (pageFrame 3) ∧ joined.isSigned 3 = false ∧ joined.roomFor 16) ∧
      (poised (held 1) ∧ (held 1).pick = some .transferIn ∧ (held 1).inFlight = false ∧
        (held 1).xfer.role = .receiver .receiving) := by
  decide +kernel

theorem witness_JoinFinalIsCheckedByTheReceiver :
    let joined := inState .joining (receiver .receiving home)
    let waiting := withXfer (fun t => { t with inbound := [{ page := 1, cells := [] }] }) joined
    let whole := withXfer (fun t => { t with received := [0, 1] }) joined
    let lacking := withXfer (fun t => { t with received := [0] }) joined
    let frame : LaneFrame := .joinFinal 1 77
    let checking (todo : List SignStep) : State :=
      (withXfer (fun t => { t with
        role := .receiver .checking, partner := some (2, .one), received := [0, 1], final := some (1, 77)
        checkBegun := true }) (inState .joining home)).setSign { a := 1, b := 300, results := [], todo := todo }
    let asks (s : State) : Prop := poised s ∧ s.pick = some .signature ∧ s.joinCheckWaits = true ∧ s.passWaits = false
    (takes waiting .one frame ∧ waiting.xfer.inbound ≠ []) ∧
      (takes whole .one frame ∧ whole.signPlan ≠ [] ∧ whole.xfer.inbound = [] ∧
        ∀ p ∈ List.range 256, whole.isSigned p = true → p ∈ whole.xfer.received) ∧
      (takes lacking .one frame ∧ lacking.isSigned 1 = true ∧ 1 ∉ lacking.xfer.received ∧ 0 ∈ lacking.xfer.received ∧
        lacking.roomFor 16) ∧
      (asks (checking [signOf 0, signOf 1]) ∧ ((checking [signOf 0, signOf 1]).page 0).state = .sound ∧
        ∀ o ∈ List.range 64, ((checking [signOf 0, signOf 1]).cell o).damage = .intact) ∧
      (asks (checking [signOf 1]) ∧ ((checking [signOf 1]).page 1).state = .sound ∧
        (checking [signOf 1]).pressure.p < 768 ∧ (checking [signOf 1]).roomFor 16 ∧
        ∀ p ∈ List.range 256, (checking [signOf 1]).isSigned p = true → p ∈ (checking [signOf 1]).xfer.received) := by
  decide +kernel

/-- An ANNOUNCE of cycle `n` from the peer on port 1. -/
def announceOf (n : Half) (st : LaneState) : LaneFrame := .announce n st (some 77) false 12 true

def argsOf (n : Half) (st : LaneState) : AnnounceArgs :=
  { note := { cycle := n, state := some st, signature := some 77, abstain := false }, p := 12, donating := true }

/-- A history whose newest record, of cycle 65535, has been decided without the peer on port 1. -/
def missed : State :=
  withHistory [cycleOf 9, { cycleOf 65535 with
    outcome := .agree, peer1 := { lane := some 2, arrival := .missing, state := none, signature := none } }]
    (inState .active home)

theorem witness_AnnouncementsAreSortedByCycle :
    let active := inState .active home
    let waits := withClose (closeAt .closed .running) (amongPeers .forming home)
    let hears (s : State) (n : Half) (st : LaneState) : Prop := takes s .one (announceOf n st) ∧
      announceArgs (announceOf n st).body = some (argsOf n st) ∧ s.xfer.role ≠ .receiver .receiving ∧
      ¬ (s.lane.state = .forming ∧ some st = some LaneState.active)
    (hears home 1 .active ∧ home.votePending = false) ∧
      (hears active 1 .active ∧ active.votePending = false ∧ active.cycleVoted = 1) ∧
      (hears waits 1 .forming ∧ PortId.two ≠ .one ∧ (waits.lane.peer .two).missing = true) ∧
      (hears active 2 .active ∧ (2 : Half) = active.cycleVoted + 1) ∧
      (hears missed 65535 .active ∧ missed.votePending = false ∧ (65535 : Half) ≠ missed.cycleVoted ∧
        missed.lane.history.getLast?.map (fun x => x.cycle) = some 65535 ∧ missed.pressure.p + 2 < 512) ∧
      (hears missed 3 .active ∧ (∀ x ∈ missed.lane.history, x.cycle ≠ 3) ∧ (3 : Half) ≠ missed.cycleVoted + 1 ∧
        missed.roomFor 8) := by
  decide +kernel

theorem witness_QueriesAndStatesAreTaken :
    let confirmed := withXfer (fun t => { t with confirmed := true }) (donor [0] [] false)
    let joined := inState .joining (receiver .receiving home)
    let stateOf (x : LaneState) : LaneFrame := .state x 4
    takes home .two .query ∧
      (takes home .one (stateOf .active) ∧ stateArgs (stateOf .active).body = some (some .active, 4) ∧
        home.xfer.role = .none ∧ home.votePending = false) ∧
      (takes (inState .forming home) .one (stateOf .active) ∧ (inState .forming home).votePending = false) ∧
      (takes (donor [0] [] false) .one (stateOf .joining) ∧ (donor [0] [] false).votePending = false) ∧
      (takes confirmed .one (stateOf .standby) ∧ confirmed.xfer.confirmed = true ∧ confirmed.closingPassRuns = false ∧
        confirmed.roomFor 16) ∧
      (takes joined .one (stateOf .halted) ∧ joined.votePending = false ∧ joined.roomFor 16) ∧
      (let votes := withHistory [cycleOf 1] (withClose (closeAt .closed .running) (inState .forming home))
       takes votes .one (stateOf .active) ∧ votes.xfer.role = .none ∧
         votes.lane.close = some (closeAt .closed .running) ∧ votes.lane.history ≠ [] ∧ votes.lane.state = .forming) := by
  decide +kernel

theorem witness_PortsFilterAndSendInOrder :
    let joined := inState .joining (receiver .receiving home)
    let bad : RxFrame := { rx .one .query with check := 0 }
    let badPage : RxFrame := { rx .one (pageFrame 1) with check := 0 }
    let unnamed := home.setComm { home.comm with inUse := none }
    let odd : RxFrame := { port := .one, lane := 2, body := [], check := frameCheck (laneChecked 2 99 []) }
    let wrong : RxFrame := { port := .one, lane := 3, body := [], check := frameCheck (laneChecked 3 2 []) }
    let sent (f : LaneFrame) : Outgoing := { lane := 1, frame := f }
    let port (a : Option LaneFrame) (x y : List LaneFrame) : State := home.setPorts (home.ports.put .one
      { sending := a.map sent, first := x.map sent, second := y.map sent, taking := false })
    (poised home ∧ home.laneNumber = some 1 ∧ home.roomFor 32) ∧
      bad.check ≠ frameCheck (laneChecked bad.lane 2 bad.body) ∧
      (poised joined ∧ badPage.body = 1 :: badPage.body.tail ∧ badPage.body.tail.length = 257 ∧
        joined.xfer.partner = some (2, .one) ∧ joined.isSigned 1 = true) ∧
      laneBodyLength 99 ≠ some odd.body.length ∧
      (laneBodyLength 2 = some wrong.body.length ∧ wrong.lane ≠ byteOf (expectedLane 1 .one)) ∧
      (poised unnamed ∧ unnamed.laneNumber = none) ∧
      (((port none [] []).ports.at .one).sending = none ∧
        ((port (some .query) [.query] []).ports.at .one).first = [sent .query] ∧
        ((port (some .query) [] [.joinAsk]).ports.at .one).second = [sent .joinAsk] ∧
        ((port (some .query) [] []).ports.at .one).sending = some (sent .query)) := by
  decide +kernel

/-! ### Hypotheses met: commissioning, faults -/

theorem commissioningArgs_comm : commissioningArgs (commRecordBytes comm) = some comm := by decide +kernel

theorem witness_CommissioningIsWrittenInTwoSteps :
    let config := inState .config home
    let locked := config.setComm { config.comm with locked := true }
    let busy := withOp (.eraseSector .one 0) config
    let job (o : ArrayOp) : State := withOp o (withJob (.writeCommissioning 9 comm) config)
    let free (s : State) : Prop := poised s ∧ s.link.live = true ∧ s.ctl.suspended = none ∧ s.ctl.waiting = []
    served home .readCommissioning [] ∧ served home .writeCommissioning (commRecordBytes comm) ∧
      (served locked .writeCommissioning (commRecordBytes comm) ∧ locked.comm.locked = true) ∧
      (served config .writeCommissioning (commRecordBytes comm) ∧ config.comm.locked = false ∧ config.ctl.op = none) ∧
      (served busy .writeCommissioning (commRecordBytes comm) ∧ busy.ctl.op ≠ none) ∧
      (let more := (commRecordBytes comm) ++ [3, 4, 9, 0]
       served config .writeCommissioning more ∧ commissioningArgs more = none) ∧
      (free (job .eraseCommissioning) ∧ RecordPlace.checkFailure ≠ .erased) ∧
      (free (job (.programRecord comm)) ∧ (job (.programRecord comm)).array.record = .erased ∧
        RecordPlace.checkFailure ≠ .record comm 0) := by
  decide +kernel

theorem witness_RecordsAreTestedInOrderAndLocked :
    let bad := { comm with lane := 4 }
    let wide := { comm with regions := List.replicate 17 regionFour }
    let twice := { comm with regions := [regionFour, regionFour] }
    let far := { comm with regions := [{ regionFour with last := 256 }] }
    let crossed := { comm with regions := [regionFour, { regionFour with number := 5, first := 9 }] }
    let unmarked := { comm with regions := [{ regionFour with signed := true }] }
    let programs := withOp .programLock (withJob (.lock 9) home)
    let stored (r : RecordPlace) : State := home.setComm { home.comm with stored := r }
    (¬ (1 ≤ bad.lane ∧ bad.lane ≤ 3) ∧ 4095 < { comm with station := 4096 }.station ∧ 16 < wide.regions.length) ∧
      (1 < (twice.regions.filter (fun h => h.number = regionFour.number)).length ∧
        twice.regions = [] ++ regionFour :: [regionFour]) ∧
      (∃ g ∈ far.regions, 255 < g.last) ∧
      (crossed.regions = [] ++ regionFour :: ([] ++ { regionFour with number := 5, first := 9 } :: []) ∧
        regionFour.first ≤ 9 ∧ 9 ≤ regionFour.last) ∧
      (∃ g ∈ unmarked.regions, g.signed = true ∧ g.journalled = false) ∧
      ((∀ y ∈ [regionFour], y.signed = false) ∧ ∃ y ∈ comm.regions, y.signed = true) ∧
      served (inState .halted home) .lockCommissioning [] ∧
      served (home.setComm { home.comm with locked := true }) .lockCommissioning [] ∧
      (served (stored .checkFailure) .lockCommissioning [] ∧ served (stored (.record bad 0)) .lockCommissioning [] ∧
        (failingRecord bad).isSome = true) ∧
      (served home .lockCommissioning [] ∧ failingRecord comm = none ∧ home.ctl.op = none) ∧
      (poised programs ∧ programs.link.live = true ∧ programs.ctl.suspended = none ∧ programs.ctl.waiting = [] ∧
        programs.array.lock = .erased ∧ (some Field.erased : Option (Field Unit)) ≠ some (.whole ())) := by
  decide +kernel

theorem witness_ApplyAndConfigureChangeTheRecordInUse :
    let config := inState .config home
    let stored (r : RecordPlace) : State := config.setComm { config.comm with stored := r }
    let asking := receiver .asking home
    served home .apply [] ∧ served (withClose (closeAt .signing .notStarted) config) .apply [] ∧
      served (stored .erased) .apply [] ∧ served (stored (.record { comm with lane := 0 } 0)) .apply [] ∧
      (served config .apply [] ∧ config.comm.stored = .record comm 0 ∧ failingRecord comm = none ∧
        config.lane.close = none ∧ config.ckpt.state ≠ .capturing ∧ config.rest.op = .none ∧ config.rest.list = [] ∧
        config.xfer.role = .none) ∧
      (let s := capturing config
       served s .apply [] ∧ s.ckpt.state = .capturing ∧ s.pagesWf = true ∧ s.xfer.role = .none) ∧
      (let restores (p : Nat) (l : List Nat) := config.setRest { config.rest with op := .page p .zero none none, list := l }
       served (restores 0 [1, 5]) .apply [] ∧ served (restores 5 [6]) .apply [] ∧ config.mapped 0 = true ∧
         config.mapped 5 = false ∧ config.mapped 6 = false) ∧
      served config .configure [] ∧ served (home.setComm { home.comm with locked := true }) .configure [] ∧
      (served home .configure [] ∧ home.xfer.role ≠ .receiver .asking ∧ home.comm.locked = false) ∧
      (served asking .configure [] ∧ asking.xfer.partner = some (2, .one) ∧ asking.roomFor 16) := by
  decide +kernel

/-- Ends of the ranges of a raise: P up to 511, from 511 to 512, from 767 to 768 in ACTIVE and in STANDBY. -/
theorem witness_FaultsAreRaisedAndPlaced :
    min 1023 ((withP 447 home).pressure.p + 64) < 512 ∧ (withP 448 home).pressure.p + 64 = 512 ∧
      ¬ voting (withP 767 home).lane.state = true ∧
      (let s := withP 767 (inState .active home)
       s.pressure.p < 768 ∧ 768 ≤ min 1023 (s.pressure.p + 2) ∧ s.lane.state = .active ∧ s.xfer.role ≠ .donor) ∧
      (let s := withP 767 (donor [0] [] false)
       s.pressure.p < 768 ∧ s.lane.state = .active ∧ s.xfer.role = .donor ∧ s.xfer.partner = some (2, .one)) ∧
      home.faults.primary = none ∧ (alerted home).faults.primary = some aFrame ∧
      (alerted home).faults.secondary = none := by
  decide +kernel

end Sys2Proof.Tests
end

section
namespace Sys2Proof.Machine

/-! ### Requests that are refused, answered or made to wait -/

section Requests

variable {s : State} {k : ReqKind} {r : Request} {ups : List Upset}

/-- A request that its handler answers without touching anything but the host link, at a still part: the reply and no more. -/
theorem event_reply_of_link {l : Link} {st : Status} {b : ReplyBody} (hs : s.serves k r) (hst : s.still)
    (hd : s.working.dispatch k r ups = (s.setLink l).answer k r.tag st b) (hl : l.live = true) (hj : l.job = none)
    (h2 : l.second = none) (hst' : st ≠ .starting) :
    s.event (fun t => t.takeRequest k r ups) = (s.setLink l).replying k r.tag st b :=
  event_reply_same hs hd hl hj h2 rfl hst' (still_setLink.mpr hst) rfl rfl rfl rfl

/-- A refusal that leaves even the host link's other parts alone. -/
theorem event_refused {st : Status} {b : ReplyBody} (hs : s.serves k r) (hst : s.still)
    (hd : s.working.dispatch k r ups = s.working.answer k r.tag st b) (hst' : st ≠ .starting) :
    s.event (fun t => t.takeRequest k r ups) = s.replying k r.tag st b := by
  have ⟨_, _, hj, h2, _⟩ := hs
  exact event_reply_of_link (l := s.working.link) hs hst hd rfl hj h2 hst'

end Requests

/-! ### What the checks of a read look at (R9, R13) -/

/-- The wrap groups a READ may carry, said of its byte. -/
theorem wrapValid_eq_false_iff (w : Nat) :
    wrapValid w = false ↔ w ≠ 0 ∧ w ≠ 8 ∧ w ≠ 16 ∧ w ≠ 32 ∧ w ≠ 64 := by
  simp [wrapValid, and_assoc]

/-- What the checks of a read come to: a refusal, or what is asked of the store. -/
def admission (refusal : Option Status) (a : ReadAsk) : Except Status ReadAsk :=
  match refusal with
  | some st => .error st
  | none => .ok a

/-- The checks of a READ, in the order of R9. -/
theorem admitRead_eq (s : State) {r : Request} {p o c w : Byte} (hb : r.body = [p, o, c, w]) :
    s.admitRead r = admission
      (if 63 < o.toNat ∨ (w.toNat ≠ 0 ∧ w.toNat ≠ 8 ∧ w.toNat ≠ 16 ∧ w.toNat ≠ 32 ∧ w.toNat ≠ 64) then some .badField
      else if c.toNat = 0 then some .badLength
      else if s.lane.state = .config then some .wrongState
      else if s.mapped p.toNat = false then some .unmapped
      else if (s.page p.toNat).state = .unset then some .pageUnset
      else if (s.page p.toNat).state = .restoring then some .pageBusy
      else none)
      { start := p.toNat * 64 + o.toNat, count := c.toNat, wrap := w.toNat } := by
  have hp : ¬ 255 < p.toNat := by have := p.isLt; omega
  simp only [State.admitRead, State.readRefusal, hb, readArgs, hp, false_or, Bool.not_eq_true', wrapValid_eq_false_iff]
  split_ifs <;> rfl

/-- The checks of a READ ON, in the order of R13. -/
theorem admitReadOn_eq (s : State) {r : Request} {c : Byte} {k : Cursor} (hb : r.body = [c])
    (hk : s.link.cursor = some k) :
    s.admitReadOn r = admission
      (if c.toNat = 0 then some .badLength
      else if s.lane.state = .config then some .wrongState
      else if s.mapped (k.addr / 64) = false then some .unmapped
      else if (s.page (k.addr / 64)).state = .unset then some .pageUnset
      else if (s.page (k.addr / 64)).state = .restoring then some .pageBusy
      else none)
      { start := k.addr, count := c.toNat, wrap := k.wrap } := by
  simp only [State.admitReadOn, State.readRefusal, hb, oneByte, hk, Bool.not_eq_true']
  split_ifs <;> rfl

/-- The checks do not look at the phase of the host link. -/
@[simp] theorem admitRead_working (s : State) (r : Request) : s.working.admitRead r = s.admitRead r := rfl
@[simp] theorem admitReadOn_working (s : State) (r : Request) : s.working.admitReadOn r = s.admitReadOn r := rfl

/-- A READ refused by its checks changes nothing but the reply. -/
theorem execRead_refused {s : State} {r : Request} {ups : List Upset} {st : Status} (hs : s.serves .read r)
    (hstill : s.still) (h : s.admitRead r = .error st) (hne : st ≠ .starting) :
    exec (.read r ups) s = .next (s.replying .read r.tag st .empty) :=
  congrArg Host.Outcome.next
    (event_refused hs hstill (by simp only [State.dispatch, State.onRead, admitRead_working, h]; rfl) hne)

/-- Likewise a READ ON. -/
theorem execReadOn_refused {s : State} {r : Request} {ups : List Upset} {st : Status} (hs : s.serves .readOn r)
    (hstill : s.still) (h : s.admitReadOn r = .error st) (hne : st ≠ .starting) :
    exec (.readOn r ups) s = .next (s.replying .readOn r.tag st .empty) :=
  congrArg Host.Outcome.next
    (event_refused hs hstill (by simp only [State.dispatch, State.onReadOn, admitReadOn_working, h]; rfl) hne)

/-- Settles O7: the checks are read off order by order, and a refusal is an answer that nothing follows. -/
theorem refusedReadsChangeNothing : Obligations.RefusedReadsChangeNothing := by
  intro s r ups st hstill
  refine ⟨fun p o c w hs hb href => ?_, fun c hs hb href => ?_⟩
  · have hne : st ≠ .starting := by
      rintro rfl
      split_ifs at href <;> simp at href
    exact execRead_refused hs hstill (by rw [admitRead_eq s hb, href]; rfl) hne
  · cases hk : s.link.cursor with
    | none =>
      rw [hk] at href
      obtain rfl : Status.noCursor = st := Option.some.inj href
      exact execReadOn_refused hs hstill (by simp only [State.admitReadOn, hb, oneByte, hk]) (by decide)
    | some k =>
      simp only [hk] at href
      have hne : st ≠ .starting := by
        rintro rfl
        split_ifs at href <;> simp at href
      exact execReadOn_refused hs hstill (by rw [admitReadOn_eq s hb hk, href]; rfl) hne

/-! ### FILL -/

/-- The host link while a request that clears the read cursor is handled. -/
def Link.cleared (l : Link) : Link := { l with phase := .working, live := true, cursor := none }

/-- The checks of a FILL on the host link that its handler works with (R14). -/
theorem onFill_working (s : State) {r : Request} {n b3 b2 b1 b0 : Byte} (hb : r.body = [n, b3, b2, b1, b0]) :
    s.working.onFill r =
      let u := s.setLink s.link.cleared
      if 15 < n.toNat then u.refuse .fill r.tag .badField
      else if s.lane.state ≠ .standby then u.refuse .fill r.tag .wrongState
      else
        match s.regions.find? (fun x => x.number == n.toNat) with
        | none => u.refuse .fill r.tag .unmapped
        | some g =>
          let pages := List.range' g.first (g.last + 1 - g.first)
          if s.lane.close ≠ none then u.refuse .fill r.tag .closePending
          else if s.inFlight = true then u.refuse .fill r.tag .engineBusy
          else if pages.any (fun q => decide ((s.page q).state = .restoring)) = true then u.refuse .fill r.tag .pageBusy
          else u.setJob (some (.fill r.tag (word b3 b2 b1 b0) pages pages)) := by
  simp only [State.onFill, hb, fillArgs, List.range'_eq_map_range, Option.isSome_iff_ne_none]
  rfl

/-- A FILL that is refused with the read cursor cleared. -/
theorem execFill_refused {s : State} {r : Request} {st : Status} (hs : s.serves .fill r) (hstill : s.still)
    (h : s.working.onFill r = (s.setLink s.link.cleared).refuse .fill r.tag st) (hne : st ≠ .starting) :
    exec (.fill r) s =
      .next (({ s with link := { s.link with cursor := none } } : State).replying .fill r.tag st .empty) := by
  have ⟨_, _, hj, h2, _⟩ := hs
  exact congrArg Host.Outcome.next (event_reply_of_link (l := s.link.cleared) hs hstill h rfl hj h2 hne)

/-- An admitted FILL waits for its pages. -/
theorem execFill_waits {s : State} {r : Request} {v : Word} {pages : List Nat} (hs : s.serves .fill r)
    (hstill : s.still)
    (h : s.working.onFill r = (s.setLink s.link.cleared).setJob (some (.fill r.tag v pages pages))) :
    exec (.fill r) s =
      .next (({ s with link := { s.link with cursor := none } } : State).waiting (.fill r.tag v pages pages)) := by
  have ⟨_, _, _, _, hout, _⟩ := hs
  have hq : ((s.setLink s.link.cleared).setJob (some (.fill r.tag v pages pages))).quiet := hout.2
  exact congrArg Host.Outcome.next
    (event_wait (ups := []) hs h hq rfl rfl (still_setLink.mpr hstill) rfl rfl rfl rfl)

/-- Settles O12: each check that fails is an answer behind a cleared cursor, and an admitted FILL is a job. -/
theorem fillIsCheckedAndWaits : Obligations.FillIsCheckedAndWaits := by
  intro s r n b3 b2 b1 b0 hstill hs hb u find
  have hfill := onFill_working s hb
  refine ⟨fun hn => ?_, fun hn hl => ?_, fun hn hl hf => ?_, fun g hn hl hf => ?_⟩
  · rw [if_pos hn] at hfill
    exact execFill_refused hs hstill hfill (by decide)
  · rw [if_neg (by omega), if_pos hl] at hfill
    exact execFill_refused hs hstill hfill (by decide)
  · rw [if_neg (by omega), if_neg (not_not_intro hl), show s.regions.find? _ = _ from hf] at hfill
    exact execFill_refused hs hstill hfill (by decide)
  · rw [if_neg (by omega), if_neg (not_not_intro hl), show s.regions.find? _ = _ from hf] at hfill
    dsimp only at hfill
    split_ifs at hfill ⊢
    · exact execFill_refused hs hstill hfill (by decide)
    · exact execFill_refused hs hstill hfill (by decide)
    · exact execFill_refused hs hstill hfill (by decide)
    · exact execFill_waits hs hstill hfill

/-! ### The values after a power-on reset -/

/-- Settles O15: every value is the one written in `State.cold`, except that of the start-up scan. -/
theorem resetLeavesPowerOnValues : Obligations.ResetLeavesPowerOnValues := by
  unfold Obligations.ResetLeavesPowerOnValues
  intro s
  have hports : ∀ p, (s.ports.at p).sending = none ∧ (s.ports.at p).first = [] ∧ (s.ports.at p).second = [] := by
    intro p
    cases p <;> exact ⟨rfl, rfl, rfl⟩
  have hpeers : ∀ p, (s.lane.peer p).known = none ∧ (s.lane.peer p).pending = none ∧ (s.lane.peer p).early = none ∧
      (s.lane.peer p).silent = 0 ∧ (s.lane.peer p).lost = false := by
    intro p
    cases p <;> exact ⟨rfl, rfl, rfl, rfl, rfl⟩
  exact ⟨fun _ => rfl, rfl, ⟨rfl, rfl, rfl, rfl⟩, rfl, ⟨rfl, rfl, rfl⟩, rfl, ⟨rfl, rfl, rfl, rfl, rfl⟩, hports, hpeers,
    ⟨rfl, rfl, rfl⟩, ⟨rfl, rfl, rfl⟩, ⟨rfl, rfl, rfl⟩, ⟨rfl, rfl, rfl, rfl, rfl, rfl⟩, ⟨rfl, rfl, rfl, rfl⟩,
    ⟨rfl, rfl, rfl⟩⟩

end Sys2Proof.Machine
end

section
namespace Sys2Proof.Machine

/-! ### The host read grant of a READ or READ ON (R10 to R13) -/

section Service

variable {s : State}

/-- Ending a job where there is none changes nothing. -/
theorem setJob_none_of_idle (h : s.link.job = none) : s.setJob none = s := by
  unfold State.setJob State.setLink
  rw [← h]

theorem hostTurn_of_hostMay (h : s.hostMay) : s.hostTurn = true := by
  rcases h with h | h <;> simp [State.hostTurn, Config.hostRun, h]

theorem mapped_of_regionOf {p : Nat} {g : Region} (h : s.regionOf p = some g) : s.mapped p = true := by
  simp [State.mapped, h]

/-- A request asks for a read of `count` cells from the cell `start` on, with wrap group `wrap`: a READ of an allowed group, or a
READ ON behind a cursor there. -/
abbrev State.asksRead (s : State) (r : Request) (k : ReqKind) (i : Instr) (start count wrap : Nat) : Prop :=
  (∃ p o c w : Byte, k = .read ∧ i = .read r [] ∧ r.body = [p, o, c, w] ∧ start = p.toNat * 64 + o.toNat ∧
      o.toNat < 64 ∧ count = c.toNat ∧ wrap = w.toNat ∧
      (wrap = 0 ∨ wrap = 8 ∨ wrap = 16 ∨ wrap = 32 ∨ wrap = 64)) ∨
    (∃ c : Byte, k = .readOn ∧ i = .readOn r [] ∧ r.body = [c] ∧ count = c.toNat ∧
      s.link.cursor = some { addr := start, wrap := wrap })

/-- A read that passes its checks, where the arbiter may grant it, is served in its own event. -/
theorem asksRead_served {r : Request} {k : ReqKind} {i : Instr} {start count wrap : Nat}
    (h : s.asksRead r k i start count wrap) (hmay : s.hostMay) (hcfg : s.lane.state ≠ .config) (hc : count ≠ 0)
    (hm : s.mapped (start / 64) = true) (hu : (s.page (start / 64)).state ≠ .unset)
    (hr : (s.page (start / 64)).state ≠ .restoring) :
    exec i s = .next (s.event (fun t => t.takeRequest k r [])) ∧
      s.working.dispatch k r [] = s.working.serveRead r.tag k start count wrap (s.lane.lastClosed + 1) [] := by
  have hturn : s.working.hostTurn = true := hostTurn_of_hostMay hmay
  rcases h with ⟨p, o, c, w, rfl, rfl, hb, rfl, ho, rfl, rfl, hw⟩ | ⟨c, rfl, rfl, hb, rfl, hk⟩
  · have hp : (p.toNat * 64 + o.toNat) / 64 = p.toNat := by omega
    rw [hp] at hm hu hr
    refine ⟨rfl, ?_⟩
    simp only [State.dispatch, State.onRead, admitRead_working, admitRead_eq s hb]
    rw [if_neg (by omega), if_neg hc, if_neg hcfg, if_neg (by simp [hm]), if_neg hu, if_neg hr]
    simp only [admission, State.startRead, hturn, if_true]
    rfl
  · refine ⟨rfl, ?_⟩
    simp only [State.dispatch, State.onReadOn, admitReadOn_working, admitReadOn_eq s hb hk]
    rw [if_neg hc, if_neg hcfg, if_neg (by simp [hm]), if_neg hu, if_neg hr]
    simp only [admission, State.startRead, hturn, if_true]
    rfl

/-- The grant of a read, from what the cells it serves come to. -/
theorem serveRead_eq {tag : Byte} {k : ReqKind} {start count wrap : Nat} {cycle : Half} {t : State} {x : ReadRun}
    (hj : s.link.job = none)
    (hx : serveCells (s.readCells start count wrap) (s.countHost, ReadRun.empty) = (t, x)) :
    s.serveRead tag k start count wrap cycle [] =
      ((t.readFaults k cycle x).setCursor (some (cursorAfter start wrap x.values.length))).answer k tag .ok
        (.read x.stale x.faulted x.values) := by
  have hs : (s.countHost.strike []).setJob none = s.countHost := setJob_none_of_idle (s := s.countHost) hj
  simp only [State.serveRead, hs]
  rw [show s.countHost.readCells start count wrap = s.readCells start count wrap from rfl, hx]

/-- A sound cell is served with its queued or stored value. -/
theorem serveCell_sound {a : Nat} (h : s.soundAt a) (r : ReadRun) :
    s.serveCell a r =
      (s, { r with values := r.values ++ [s.seen a], stale := r.stale || decide ((s.page (a / 64)).state = .stale) }) := by
  unfold State.serveCell State.seen
  cases hf : s.forwarded a with
  | some v => rfl
  | none =>
    obtain ⟨hall, hl, hd⟩ : (s.page (a / 64)).suspectAll = false ∧ a ∉ s.suspects ∧ (s.cell a).damage = .intact := by
      simpa only [hf, Option.isSome_none, Bool.false_eq_true, false_or] using (show _ ∨ _ from h)
    simp only [hall, State.listed, List.contains_eq_mem, hl, hd, decide_false, Bool.or_self]
    rfl

/-- Sound cells are served one after another, and serving them changes nothing. -/
theorem serveCells_sound {cells : List Nat} (h : ∀ a ∈ cells, s.soundAt a) (r : ReadRun) :
    serveCells cells (s, r) =
      (s, { r with
        values := r.values ++ cells.map s.seen
        stale := r.stale || cells.any (fun a => decide ((s.page (a / 64)).state = .stale)) }) := by
  induction cells generalizing r with
  | nil => simp [serveCells]
  | cons a cells ih =>
    rw [serveCells, serveCell_sound (h a List.mem_cons_self), ih (fun b hb => h b (List.mem_cons_of_mem a hb))]
    simp [Bool.or_assoc]

/-- The cells a read serves, spelt out (R10). -/
theorem readCells_eq {start : Nat} {g : Region} (hg : s.regionOf (start / 64) = some g) (count wrap : Nat) :
    s.readCells start count wrap =
      if wrap = 0 then
        ((List.range (min (min count 64) (g.last * 64 + 64 - start))).map (fun n => start + n)).takeWhile (fun a =>
          decide ((s.page (a / 64)).state ≠ .unset) && decide ((s.page (a / 64)).state ≠ .restoring))
      else (List.range (min count wrap)).map (fun n => start - start % wrap + (start % wrap + n) % wrap) := by
  have hserv : s.servable = fun a =>
      decide ((s.page (a / 64)).state ≠ .unset) && decide ((s.page (a / 64)).state ≠ .restoring) := by
    funext a
    simp [State.servable, bne, decide_not, beq_eq_decide]
  simp only [State.readCells, State.straightCells, hg, hserv]
  rfl

end Service

/-- Settles O8: the cells to be served are all sound, so serving them only collects their values. -/
theorem readsServeSoundCells : Obligations.ReadsServeSoundCells := by
  intro s r k i start count wrap g hstill hs hmay hcfg hc hg hask hu hr cells hsound
  obtain ⟨hexec, hd⟩ := asksRead_served hask hmay hcfg hc (mapped_of_regionOf hg) hu hr
  have ⟨_, _, hj, h2, _⟩ := hs
  have hserve := serveCells_sound (s := s.working.countHost) (cells := cells) hsound ReadRun.empty
  have hcells : s.working.readCells start count wrap = cells := readCells_eq hg count wrap
  rw [serveRead_eq (s := s.working) hj ((congrArg (serveCells · _) hcells).trans hserve)] at hd
  rw [hexec, event_reply_same (u := s.working.countHost.setCursor _) (st := .ok) hs hd rfl hj h2 rfl (by decide) hstill
    rfl rfl rfl rfl]
  simp only [ReadRun.empty, List.nil_append, Bool.false_or, List.length_map]
  rfl

end Sys2Proof.Machine
end

section
namespace Sys2Proof.Machine

/-! ### What a finding of a damaged cell sets off (R5, R11, R42, R44, R111) -/

section Findings

variable {s u : State}

/-- With no checkpoint in flight the stillness of a part looks at the close, the marks in use, the queue, the transfer and
checkpoint engines and the restore list, and at nothing else. -/
theorem still_of_blocks (h : s.still) (hf : s.inFlight = false) (hclose : u.lane.close = s.lane.close)
    (hcomm : u.comm = s.comm) (hqueue : u.queue = s.queue) (hxfer : u.xfer = s.xfer) (hckpt : u.ckpt = s.ckpt)
    (hrest : u.rest.op ≠ .none ∨ u.rest.list = []) : u.still := by
  obtain ⟨hcs, -, -, hds, hch, hrs, hes⟩ := h
  have hflight : u.flightStands = true := by
    unfold State.flightStands
    rw [hckpt]
    cases hc : s.ckpt.state <;> simp_all [State.inFlight]
  refine ⟨?_, hrest, hflight, ?_, ?_, ?_, ?_⟩
  · rw [← hcs]; simp only [State.closeStands, hclose, hqueue, hxfer]
  · rw [← hds]; simp only [State.donorStands, State.closingPassRuns, hclose, hxfer]
  · rw [← hch]; simp only [State.checkStands, hxfer]
  · have hhigh : u.highMark = s.highMark := by unfold State.highMark State.param; rw [hcomm]
    have hlow : u.lowMark = s.lowMark := by unfold State.lowMark State.param; rw [hcomm]
    rw [← hrs]; simp only [State.runStands, hhigh, hlow, hqueue]
  · rw [← hes]; simp only [State.eraseStands, hckpt]

/-- `u` has the host link, the notes, the output lines and the blocks of `s` but for the image, the pages and what findings
change: the suspect list, the restore list, the fault store, P and the patrol. -/
structure State.Keeps (u s : State) : Prop where
  phase : u.phase = s.phase
  link : u.link = s.link
  notes : u.notes = s.notes
  pins : u.pins = s.pins
  lane : u.lane = s.lane
  comm : u.comm = s.comm
  queue : u.queue = s.queue
  xfer : u.xfer = s.xfer
  ckpt : u.ckpt = s.ckpt

namespace State.Keeps

theorem refl (s : State) : s.Keeps s := ⟨rfl, rfl, rfl, rfl, rfl, rfl, rfl, rfl, rfl⟩

variable (h : u.Keeps s)
include h

theorem setPages (g : List (Nat × PageRec)) : (u.setPages g).Keeps s := ⟨h.1, h.2, h.3, h.4, h.5, h.6, h.7, h.8, h.9⟩

theorem setImage (m : List (Nat × Option StoredCell)) : (u.setImage m).Keeps s :=
  ⟨h.1, h.2, h.3, h.4, h.5, h.6, h.7, h.8, h.9⟩

theorem setSuspects (l : List Nat) : (u.setSuspects l).Keeps s := ⟨h.1, h.2, h.3, h.4, h.5, h.6, h.7, h.8, h.9⟩

theorem setRest (x : Restore) : (u.setRest x).Keeps s := ⟨h.1, h.2, h.3, h.4, h.5, h.6, h.7, h.8, h.9⟩

theorem raised (k : FaultKind) (w : Nat) : (u.raised k w).Keeps s := ⟨h.1, h.2, h.3, h.4, h.5, h.6, h.7, h.8, h.9⟩

theorem framed (f : FaultFrame) : (u.framed f).Keeps s := ⟨h.1, h.2, h.3, h.4, h.5, h.6, h.7, h.8, h.9⟩

theorem framedBehind (f : FaultFrame) : (u.framedBehind f).Keeps s := ⟨h.1, h.2, h.3, h.4, h.5, h.6, h.7, h.8, h.9⟩

theorem permitCond : u.permitCond = s.permitCond := by
  unfold State.permitCond
  rw [h.lane, h.comm]

theorem still (hstill : s.still) (hf : s.inFlight = false) (hrest : u.rest.op ≠ .none ∨ u.rest.list = []) :
    u.still :=
  still_of_blocks hstill hf (congrArg LaneUnit.close h.lane) h.comm h.queue h.xfer h.ckpt hrest

end State.Keeps

/-- The page table `g` is that of `s` with the record of page `p` changed by `f`. -/
abbrev State.onlyPage (s : State) (g : List (Nat × PageRec)) (p : Nat) (f : PageRec → PageRec) : Prop :=
  ∀ q, (s.setPages g).page q = if q = p then f (s.page q) else s.page q

/-- A change of one page's record that leaves it unlike a fresh one. -/
theorem onlyPage_mapPage {p : Nat} {f : PageRec → PageRec} (h : f (s.page p) ≠ PageRec.fresh) :
    s.onlyPage (s.mapPage p f).pages p f := by
  intro q
  change (s.putPage p (f (s.page p))).page q = _
  split_ifs with hq
  · rw [hq, page_putPage_same (.inr h)]
  · exact page_putPage_other s _ hq

/-- Outside a reception a page that was neither UNSET nor RESTORING becomes SUSPECT. -/
theorem makeSuspect_eq {p : Nat} (hrole : s.xfer.role = .none) (hu : (s.page p).state ≠ .unset)
    (hr : (s.page p).state ≠ .restoring) :
    ∃ g, s.makeSuspect p = s.setPages g ∧ s.onlyPage g p (fun x => { x with state := .suspect }) := by
  unfold State.makeSuspect
  split_ifs with hst
  · refine ⟨_, ?_, onlyPage_mapPage (by simp [PageRec.fresh])⟩
    unfold State.lostReceived
    rw [show (s.mapPage p _).xfer.role = .none from hrole]
    rfl
  · have hsus : (s.page p).state = .suspect := by cases h : (s.page p).state <;> simp_all
    refine ⟨s.pages, rfl, fun q => ?_⟩
    split_ifs with hq
    · rw [hq, ← hsus]; rfl
    · rfl

theorem cellAddr_div_mod (a : Nat) : cellAddr (a / 64) (a % 64) = a := by
  unfold cellAddr; omega

/-- A cell that is not listed yet goes to the end of a suspect list that has room. -/
theorem offerSuspect_room {p o : Nat} (hall : (s.page p).suspectAll = false) (hl : p * 64 + o ∉ s.suspects)
    (hroom : s.suspects.length < 32) : offerSuspect p o s = (s.setSuspects (s.suspects ++ [p * 64 + o]), false) := by
  simp [offerSuspect, hall, State.listed, cellAddr, hl, Config.suspectCells, hroom]

/-- With a full list the page's suspect-all flag is set instead. -/
theorem offerSuspect_full {p o : Nat} (hall : (s.page p).suspectAll = false) (hl : p * 64 + o ∉ s.suspects)
    (hfull : 32 ≤ s.suspects.length) :
    offerSuspect p o s = (s.mapPage p (fun r => { r with suspectAll := true }), true) := by
  simp [offerSuspect, hall, State.listed, cellAddr, hl, Config.suspectCells, Nat.not_lt.mpr hfull]

/-- A page that stands on the restore list keeps its place; another one goes to the end of a list that has room (R111). -/
theorem offerRestore_room {p : Nat} (h : p ∈ s.rest.list ∨ s.rest.list.length < 64) :
    s.offerRestore p =
      s.setRest { s.rest with list := if p ∈ s.rest.list then s.rest.list else s.rest.list ++ [p] } := by
  by_cases hp : p ∈ s.rest.list
  · simp only [State.offerRestore, List.contains_eq_mem, hp, decide_true, if_true]; rfl
  · have hlen : ¬ 64 ≤ s.rest.list.length := by
      rcases h with h | h
      · exact absurd h hp
      · omega
    simp [State.offerRestore, hp, Config.restoreListPages, hlen]

/-- With the list full the offer fails (R111). -/
theorem offerRestore_full {p : Nat} (hp : p ∉ s.rest.list) (hfull : 64 ≤ s.rest.list.length)
    (hprim : s.faults.primary = none) (hlow : s.pressure.p + 32 < 512) :
    s.offerRestore p =
      (s.raised .restoreFailed 32).framed (.transfer .restoreFailed .pageRestore (some p) none 0 .listFull) := by
  have hraise : s.raise .restoreFailed FaultKind.restoreFailed.weight = s.raised .restoreFailed 32 := raise_low hlow
  simp only [State.offerRestore, List.contains_eq_mem, hp, decide_false, Bool.false_eq_true, if_false,
    Config.restoreListPages, hfull, if_true, hraise]
  exact placeFrame_empty _ hprim

/-- A frame finds the primary slot held and the secondary one empty. -/
theorem placeFrame_behind {f g : FaultFrame} (hp : s.faults.primary = some g) (hs : s.faults.secondary = none) :
    s.placeFrame f = s.framedBehind f := by
  simp only [State.placeFrame, State.framedBehind, State.setFaults, hp, hs]

/-- An ALERT line that is what the fault store makes it stays. -/
theorem withAlert_of_lines (h : s.pins.alert = s.alertCond) : s.withAlert = s := by
  have : s.withAlert = s.setPins { s.pins with alert := s.alertCond } := rfl
  rw [this, ← h]; rfl

end Findings

/-! ### A read of one cell -/

section OneCell

variable {s : State} {a : Nat}

/-- A run that takes notice of the STALE page of a cell. -/
def ReadRun.passing (r : ReadRun) (s : State) (a : Nat) : ReadRun :=
  { r with stale := r.stale || decide ((s.page (a / 64)).state = .stale) }

/-- A cell known to be faulted is served as faulted. -/
theorem serveCell_known (hf : s.forwarded a = none) (h : (s.page (a / 64)).suspectAll = true ∨ a ∈ s.suspects)
    (r : ReadRun) : s.serveCell a r = (s, (r.passing s a).fault) := by
  have hknown : ((s.page (a / 64)).suspectAll || s.listed a) = true := by
    simpa [State.listed] using h
  simp only [State.serveCell, hf, hknown, if_true]
  rfl

/-- A cell not known to be faulted is served by what its check finds. -/
theorem serveCell_unknown (hf : s.forwarded a = none) (hall : (s.page (a / 64)).suspectAll = false)
    (hl : a ∉ s.suspects) (r : ReadRun) :
    s.serveCell a r =
      match (s.cell a).damage with
      | .intact => (s, (r.passing s a).serve (s.cell a).value)
      | .oneBit => (s.writeCell a (s.cell a).value,
          { (r.passing s a).serve (s.cell a).value with corrected := r.corrected + 1 })
      | .twoBits => s.readFinding a (r.passing s a) := by
  have hknown : ¬ ((s.page (a / 64)).suspectAll || s.listed a) = true := by
    simp [State.listed, hall, hl]
  simp only [State.serveCell, hf, if_neg hknown]
  rfl

/-- A read of one cell without wrap serves that cell. -/
theorem readCells_one (hm : s.mapped (a / 64) = true) (hu : (s.page (a / 64)).state ≠ .unset)
    (hr : (s.page (a / 64)).state ≠ .restoring) : s.readCells a 1 0 = [a] := by
  obtain ⟨g, hg⟩ := Option.isSome_iff_exists.mp hm
  have hlast : a / 64 ≤ g.last := by
    have := List.find?_some hg
    simp only [Bool.and_eq_true, decide_eq_true_eq] at this
    exact this.2
  have hone : min (min 1 64) (g.last * 64 + 64 - a) = 1 := by omega
  rw [readCells_eq hg, if_pos rfl, hone]
  simp [hu, hr]

/-- A read of one cell, from what that cell comes to. -/
theorem read_one_cell {r : Request} {k : ReqKind} {i : Instr} {t : State} {x : ReadRun} (hs : s.serves k r)
    (hask : s.asksRead r k i a 1 0) (hmay : s.hostMay) (hcfg : s.lane.state ≠ .config)
    (hm : s.mapped (a / 64) = true) (hu : (s.page (a / 64)).state ≠ .unset) (hr : (s.page (a / 64)).state ≠ .restoring)
    (hx : s.working.countHost.serveCell a ReadRun.empty = (t, x))
    {v : State} (hv : t.readFaults k (s.lane.lastClosed + 1) x = v) (hkeep : v.Keeps s.working) (hstill : v.still) :
    exec i s = .next
      ((v.setCursor (some { addr := a + x.values.length, wrap := 0 })).withAlert.replying k r.tag .ok
        (.read x.stale x.faulted x.values)) := by
  obtain ⟨hexec, hd⟩ := asksRead_served hask hmay hcfg (by decide) hm hu hr
  have ⟨_, _, hj, h2, _⟩ := hs
  have hserve : serveCells (s.working.readCells a 1 0) (s.working.countHost, ReadRun.empty) = (t, x) := by
    rw [show s.working.readCells a 1 0 = [a] from readCells_one (s := s) hm hu hr]
    exact hx
  rw [serveRead_eq (s := s.working) hj hserve, hv] at hd
  have hwl : ∀ c, (v.setCursor c).link = { s.working.link with cursor := c } := by
    intro c
    rw [← hkeep.link]; rfl
  rw [hexec, event_reply (u := v.setCursor _) (st := .ok) hs hd (by rw [hwl]; rfl) (by rw [hwl]; exact hj)
    (by rw [hwl]; exact h2) hkeep.notes (by decide) (still_setCursor hstill) hkeep.pins hkeep.permitCond hkeep.phase,
    show s.pins = v.pins from hkeep.pins.symm]
  rfl

/-- A read that found no new cell hands on its corrections only. -/
theorem readFaults_of_corrected {k : ReqKind} {c : Half} {x : ReadRun} (hf : x.found = []) (hc : x.corrected = 1)
    (hlow : s.pressure.p + 4 < 512) : s.readFaults k c x = s.raised .corrected 4 := by
  simp only [State.readFaults, State.raiseCorrected, hf, hc]
  exact raise_low hlow

/-- A read that found one cell and corrected none places its ACCESS frame. -/
theorem readFaults_of_found {k : ReqKind} {c : Half} {x : ReadRun} {p o : Nat} (hf : x.found = [(p, o)])
    (hc : x.corrected = 0) :
    s.readFaults k c x =
      s.placeFrame (.access (if x.overflow = [] then .uncorrectable else .suspectOverflow) k p [o] c) := by
  simp [State.readFaults, State.raiseCorrected, accessFrame, hf, hc]

/-- The state with the cell `a` listed, the page table `g`, and UNCORRECTABLE raised. -/
def State.foundAt (s : State) (g : List (Nat × PageRec)) (a : Nat) : State :=
  ({ s with pages := g, suspects := s.suspects ++ [a] } : State).raised .uncorrectable 64

/-- The first new cell of a request, with room on the suspect list: the cell is listed, its page SUSPECT, and UNCORRECTABLE
raised; then its page may be offered for a restore. -/
theorem readFinding_room (hrole : s.xfer.role = .none) (hu : (s.page (a / 64)).state ≠ .unset)
    (hr : (s.page (a / 64)).state ≠ .restoring) (hall : (s.page (a / 64)).suspectAll = false) (hl : a ∉ s.suspects)
    (hroom : s.suspects.length < 32) (hlow : s.pressure.p + 64 < 512) :
    ∃ g, s.onlyPage g (a / 64) (fun x => { x with state := .suspect }) ∧
      ∀ r : ReadRun, r.found = [] →
        s.readFinding a r =
          (if s.isAutoRestore (a / 64) = true then (s.foundAt g a).offerRestore (a / 64) else s.foundAt g a,
            { r.fault with found := [(a / 64, a % 64)] }) := by
  have ha : a / 64 * 64 + a % 64 = a := cellAddr_div_mod a
  have hoffer := offerSuspect_room (s := s) (p := a / 64) (o := a % 64) hall (by rwa [ha]) hroom
  rw [ha] at hoffer
  obtain ⟨g, hg, hpage⟩ := makeSuspect_eq (s := s.setSuspects (s.suspects ++ [a])) hrole hu hr
  refine ⟨g, hpage, fun r hfound => ?_⟩
  have hraise : ((s.setSuspects (s.suspects ++ [a])).setPages g).raise .uncorrectable FaultKind.uncorrectable.weight =
      s.foundAt g a := raise_low hlow
  simp only [State.readFinding, hoffer, hg, hraise, hfound, List.any_nil, Bool.not_false, and_true, Bool.false_eq_true,
    if_false, List.nil_append]
  rfl

/-- The first new cell of a request, with the suspect list full, in a region without auto-restore: the page's suspect-all flag
is set instead, and SUSPECT_OVERFLOW raised too. -/
theorem readFinding_full (hrole : s.xfer.role = .none) (hu : (s.page (a / 64)).state ≠ .unset)
    (hr : (s.page (a / 64)).state ≠ .restoring) (hall : (s.page (a / 64)).suspectAll = false) (hl : a ∉ s.suspects)
    (hfull : 32 ≤ s.suspects.length) (hauto : s.isAutoRestore (a / 64) = false) (hlow : s.pressure.p + 96 < 512) :
    ∃ g, s.onlyPage g (a / 64) (fun x => { x with state := .suspect, suspectAll := true }) ∧
      ∀ r : ReadRun, r.overflow = [] → r.found = [] →
        s.readFinding a r =
          (((s.setPages g).raised .uncorrectable 64).raised .suspectOverflow 32,
            { r.fault with found := [(a / 64, a % 64)], overflow := [a / 64] }) := by
  have ha : a / 64 * 64 + a % 64 = a := cellAddr_div_mod a
  have hoffer := offerSuspect_full (s := s) (p := a / 64) (o := a % 64) hall (by rwa [ha]) hfull
  generalize hx : s.mapPage (a / 64) (fun r => { r with suspectAll := true }) = x at hoffer
  have hflag : s.onlyPage x.pages (a / 64) (fun r => { r with suspectAll := true }) :=
    hx ▸ onlyPage_mapPage (by simp [PageRec.fresh])
  have hxs : x = s.setPages x.pages := by rw [← hx]; rfl
  have hxp : x.page (a / 64) = { s.page (a / 64) with suspectAll := true } := by
    have := hflag (a / 64)
    rwa [← hxs, if_pos rfl] at this
  obtain ⟨g, hg, hpage⟩ := makeSuspect_eq (s := x) (p := a / 64) (by rw [hxs]; exact hrole) (by rw [hxp]; exact hu)
    (by rw [hxp]; exact hr)
  refine ⟨g, fun q => ?_, fun r hover hfound => ?_⟩
  · have h1 := hpage q
    have h2 := hflag q
    rw [← hxs] at h2
    rw [h2] at h1
    rw [hxs] at h1
    split_ifs at h1 ⊢ <;> exact h1
  · have hraise : ((x.setPages g).raise .uncorrectable FaultKind.uncorrectable.weight).raise .suspectOverflow
        FaultKind.suspectOverflow.weight =
        ((s.setPages g).raised .uncorrectable 64).raised .suspectOverflow 32 := by
      have h1 : (x.setPages g).raise .uncorrectable FaultKind.uncorrectable.weight =
          ({ s with pages := g } : State).raised .uncorrectable 64 := by
        rw [hxs]
        exact raise_low (by change s.pressure.p + 64 < 512; omega)
      rw [h1]
      exact raise_low (by change s.pressure.p + 64 + 32 < 512; omega)
    have hauto' : State.isAutoRestore (((s.setPages g).raised .uncorrectable 64).raised
        .suspectOverflow 32) (a / 64) = false := hauto
    simp only [State.readFinding, hoffer, hg, hraise, hfound, hover, hauto', if_true, Bool.false_eq_true, false_and,
      if_false, List.nil_append]

/-- A read of one cell that is found uncorrectable, from its finding and the frame it places. -/
theorem read_found_cell {r : Request} {k : ReqKind} {i : Instr} {t : State} {overflow : List Nat} (hs : s.serves k r)
    (hask : s.asksRead r k i a 1 0) (hmay : s.hostMay) (hcfg : s.lane.state ≠ .config)
    (hm : s.mapped (a / 64) = true) (hu : (s.page (a / 64)).state ≠ .unset) (hr : (s.page (a / 64)).state ≠ .restoring)
    (hf : s.forwarded a = none) (hall : (s.page (a / 64)).suspectAll = false) (hl : a ∉ s.suspects)
    (hd : (s.cell a).damage = .twoBits)
    (hfind : s.working.countHost.readFinding a (ReadRun.empty.passing s a) =
      (t, { (ReadRun.empty.passing s a).fault with found := [(a / 64, a % 64)], overflow }))
    {v : State}
    (hv : t.placeFrame (.access (if overflow = [] then .uncorrectable else .suspectOverflow) k (a / 64) [a % 64]
      (s.lane.lastClosed + 1)) = v) (hkeep : v.Keeps s.working) (hstill : v.still) :
    exec i s = .next
      ((v.setCursor (some { addr := a + 1, wrap := 0 })).withAlert.replying k r.tag .ok
        (.read (decide ((s.page (a / 64)).state = .stale)) [0] [0xFFFFFFFF])) := by
  have hserve := serveCell_unknown (s := s.working.countHost) hf hall hl ReadRun.empty
  rw [show (s.working.countHost.cell a).damage = .twoBits from hd] at hserve
  have hfaults := readFaults_of_found (s := t) (k := k) (c := s.lane.lastClosed + 1)
    (x := { (ReadRun.empty.passing s a).fault with found := [(a / 64, a % 64)], overflow }) rfl rfl
  rw [read_one_cell hs hask hmay hcfg hm hu hr (hserve.trans hfind) (hfaults.trans hv) hkeep hstill]
  simp only [ReadRun.passing, ReadRun.fault, ReadRun.empty, Bool.false_or, List.nil_append, List.length_nil,
    List.length_singleton]
  rfl

end OneCell

/-! The phase in which a handler runs does not meet what a read changes: it is carried outward to the reply, which ends it. -/

section Working

variable (s : State)

theorem countHost_working : s.working.countHost = s.countHost.working := rfl
theorem setCursor_working (c : Option Cursor) : s.working.setCursor c = (s.setCursor c).working := rfl
theorem writeCell_working (a : Nat) (v : Word) : s.working.writeCell a v = (s.writeCell a v).working := rfl
theorem foundAt_working (g : List (Nat × PageRec)) (a : Nat) : s.working.foundAt g a = (s.foundAt g a).working := rfl
theorem setPages_working (g : List (Nat × PageRec)) : s.working.setPages g = (s.setPages g).working := rfl
theorem setRest_working (x : Restore) : s.working.setRest x = (s.setRest x).working := rfl
theorem raised_working (k : FaultKind) (w : Nat) : s.working.raised k w = (s.raised k w).working := rfl
theorem framed_working (f : FaultFrame) : s.working.framed f = (s.framed f).working := rfl
theorem framedBehind_working (f : FaultFrame) : s.working.framedBehind f = (s.framedBehind f).working := rfl
theorem withAlert_working : s.working.withAlert = s.withAlert.working := rfl

end Working

/-- Settles O9: one cell is served, and what its standing sets off is said finding by finding. -/
theorem readOfADamagedCellIsFaultedOrCorrected : Obligations.ReadOfADamagedCellIsFaultedOrCorrected := by
  intro s r k i a hstill hs hmay hcfg hm hu hr hf hflight hrole hprim hp hask u stale access
  have hask' : s.asksRead r k i a 1 0 := by
    rcases hask with ⟨p, o, rfl, rfl, hb, ha, ho⟩ | ⟨rfl, rfl, hb, hk⟩
    · exact .inl ⟨p, o, 1, 0, rfl, rfl, hb, ha, ho, rfl, rfl, .inl rfl⟩
    · exact .inr ⟨1, rfl, rfl, hb, rfl, hk⟩
  have ⟨_, _, _, _, ⟨⟨_, halert, _⟩, _⟩, _⟩ := hs
  have hrest : s.rest.op ≠ .none ∨ s.rest.list = [] := hstill.2.1
  have hkeep : s.working.countHost.Keeps s.working := ⟨rfl, rfl, rfl, rfl, rfl, rfl, rfl, rfl, rfl⟩
  have hworking : s.working.still := hstill
  refine ⟨fun hk => ?_, fun hall hl hd => ?_, fun hall hl hd hroom => ?_, fun hall hl hd hfull hauto hp' => ?_⟩
  · have hserve := serveCell_known (s := s.working.countHost) hf hk ReadRun.empty
    rw [read_one_cell hs hask' hmay hcfg hm hu hr hserve (v := s.working.countHost) rfl hkeep hstill,
      withAlert_of_lines (by exact halert)]
    rfl
  · have hserve := serveCell_unknown (s := s.working.countHost) hf hall hl ReadRun.empty
    rw [show (s.working.countHost.cell a).damage = .oneBit from hd] at hserve
    refine ⟨(s.writeCell a (s.cell a).value).image, cell_writeCell s a _, ?_⟩
    have hlow : s.pressure.p + 4 < 512 := by omega
    rw [read_one_cell hs hask' hmay hcfg hm hu hr hserve (readFaults_of_corrected rfl rfl hlow)
      ((hkeep.setImage _).raised _ _) hstill]
    simp only [countHost_working, writeCell_working, raised_working, setCursor_working, withAlert_working, working_replying]
    rfl
  · obtain ⟨g, hg, hfind⟩ := readFinding_room (s := s.working.countHost) hrole hu hr hall hl hroom hp
    have hfind := hfind (ReadRun.empty.passing s a) rfl
    have hfound : (s.working.countHost.foundAt g a).Keeps s.working := ((hkeep.setPages g).setSuspects _).raised _ _
    refine ⟨g, hg, fun hauto => ?_, fun hauto hop hlist => ?_, fun hauto hop hlist hlong hsec hp' => ?_⟩
    · rw [if_neg (by rw [Bool.not_eq_true]; exact hauto)] at hfind
      have hk := hfound.framed (access .uncorrectable)
      rw [read_found_cell hs hask' hmay hcfg hm hu hr hf hall hl hd hfind (placeFrame_empty _ hprim) hk
        (hk.still hworking hflight hrest)]
      simp only [countHost_working, foundAt_working, framed_working, setCursor_working, withAlert_working, working_replying]
      rfl
    · rw [if_pos (show s.working.countHost.isAutoRestore _ = true from hauto),
        offerRestore_room (s := s.working.countHost.foundAt g a) hlist] at hfind
      have hk := (hfound.setRest { s.rest with
        list := if a / 64 ∈ s.rest.list then s.rest.list else s.rest.list ++ [a / 64] }).framed (access .uncorrectable)
      rw [read_found_cell hs hask' hmay hcfg hm hu hr hf hall hl hd hfind (placeFrame_empty _ hprim) hk
        (hk.still hworking hflight (.inl hop))]
      simp only [countHost_working, foundAt_working, setRest_working, framed_working, setCursor_working, withAlert_working,
        working_replying]
      rfl
    · have hlow : s.pressure.p + 64 + 32 < 512 := by omega
      rw [if_pos (show s.working.countHost.isAutoRestore _ = true from hauto),
        offerRestore_full (s := s.working.countHost.foundAt g a) hlist hlong hprim hlow] at hfind
      have hk := ((hfound.raised .restoreFailed 32).framed
        (.transfer .restoreFailed .pageRestore (some (a / 64)) none 0 .listFull)).framedBehind (access .uncorrectable)
      rw [read_found_cell hs hask' hmay hcfg hm hu hr hf hall hl hd hfind (placeFrame_behind rfl hsec) hk
        (hk.still hworking hflight hrest)]
      simp only [countHost_working, foundAt_working, raised_working, framed_working, framedBehind_working,
        setCursor_working, withAlert_working, working_replying]
      rfl
  · obtain ⟨g, hg, hfind⟩ := readFinding_full (s := s.working.countHost) hrole hu hr hall hl hfull hauto hp'
    have hfind := hfind (ReadRun.empty.passing s a) rfl rfl
    have hk := (((hkeep.setPages g).raised .uncorrectable 64).raised .suspectOverflow 32).framed (access .suspectOverflow)
    refine ⟨g, hg, ?_⟩
    rw [read_found_cell hs hask' hmay hcfg hm hu hr hf hall hl hd hfind (placeFrame_empty _ hprim) hk
      (hk.still hworking hflight hrest)]
    simp only [countHost_working, setPages_working, raised_working, framed_working, setCursor_working, withAlert_working,
      working_replying]
    rfl

end Sys2Proof.Machine
end

section
/-! EXCHANGE: its checks, its old value, and the entry it posts; and an EXCHANGE held for a restore. -/

namespace Sys2Proof.Machine

section Exchange

variable {s : State} {r : Request} {p o b3 b2 b1 b0 : Byte}

/-- What an EXCHANGE asks to be written (R19). -/
def exchanged (p o : Nat) (v : Word) : WriteArgs := { page := p, offset := o, values := [v] }

/-- The checks of an EXCHANGE are those of a WRITE of one value, in the order of R17. -/
theorem admitExchange_eq (s : State) (hb : r.body = [p, o, b3, b2, b1, b0]) :
    s.admitExchange r =
      match
        (if 63 < o.toNat then some Status.badField
        else if s.lane.state = .config then some .wrongState
        else if s.mapped p.toNat = false then some .unmapped
        else if (s.page p.toNat).state = .unset then some .pageUnset
        else if s.isGuarded p.toNat = true ∧
            (s.lane.state = .joining ∨ s.lane.state = .excluded ∨ s.lane.state = .halted) then some .guarded
        else if 8 ≤ s.queue.entries.length ∨ 64 < (s.queue.entries.map (fun e => e.values.length)).sum + 1 then
          some .queueFull
        else none) with
      | some st => .error st
      | none => .ok (exchanged p.toNat o.toNat (word b3 b2 b1 b0)) := by
  have hp : ¬ 255 < p.toNat := by have := p.isLt; omega
  simp only [State.admitExchange, hb, exchangeArgs, State.writeRefusal, hp, false_or, Bool.not_eq_true',
    List.length_singleton, List.cons_ne_nil, show ¬ 16 < 1 by decide, false_or, if_false, Config.queueEntries,
    Config.queueCells, queueCellCount]
  by_cases ho : 63 < o.toNat
  · simp only [ho, if_true]
  · have hspan : ¬ 64 < o.toNat + 1 := by omega
    simp only [ho, hspan, if_false]
    rfl

/-- A posted entry goes to the tail, with the run flag of the new count (R18, R22). -/
theorem postEntry_eq (s : State) (a : WriteArgs) :
    s.postEntry a = s.setQueue {
      entries := s.queue.entries ++
        [{ page := a.page, offset := a.offset, values := a.values, age := 0, closing := false }]
      run := s.runAt (s.queue.entries.length + 1) } := by
  simp only [State.postEntry, State.updateRun, State.setQueue_queue, List.length_append, List.length_singleton]
  rfl

/-- A posted entry begins nothing but a high-mark run. -/
theorem still_postEntry (h : s.still) (a : WriteArgs) : (s.postEntry a).still := by
  obtain ⟨hclose, hrest, hflight, hdonor, hcheck, -, herase⟩ := h
  rw [postEntry_eq]
  refine ⟨?_, hrest, hflight, hdonor, hcheck, ?_, herase⟩
  · unfold State.closeStands at hclose ⊢
    simp only [State.setQueue_lane, State.setQueue_queue, State.setQueue_xfer, List.any_append] at hclose ⊢
    split <;> simp_all
  · change (if s.highMark ≤ _ then s.runAt _ else if _ ≤ s.lowMark then !s.runAt _ else true) = true
    simp only [State.setQueue_queue, List.length_append, List.length_singleton, State.runAt]
    split_ifs <;> rfl

/-- The host read grant of an EXCHANGE whose cell is served without a finding, on the part `w` that is left once its job is over:
the entry is posted, and the old value answered. -/
theorem serveExchange_eq {tag : Byte} {a : WriteArgs} {cycle : Half} {w : State} {x : ReadRun}
    (hw : s.countHost.setJob none = w) (hx : w.serveCell (cellAddr a.page a.offset) ReadRun.empty = (w, x))
    (hc : x.corrected = 0) (hf : x.found = []) :
    s.serveExchange tag a cycle [] = w.endExchange tag a (x.values.headD faultedValue) (x.faulted != []) x.stale := by
  have hfaults : w.readFaults .exchange cycle x = w := by
    simp [State.readFaults, State.raiseCorrected, hc, hf]
  simp only [State.serveExchange, show (s.countHost.strike []).setJob none = w from hw, hx, hfaults]

/-- Such a cell known to be faulted. -/
theorem serveExchange_known {tag : Byte} {q c : Nat} {v : Word} {cycle : Half} {w : State} (hc : c < 64)
    (hw : s.countHost.setJob none = w) (hf : w.forwarded (q * 64 + c) = none)
    (h : (w.page q).suspectAll = true ∨ q * 64 + c ∈ w.suspects) :
    s.serveExchange tag (exchanged q c v) cycle [] =
      w.endExchange tag (exchanged q c v) 0xFFFFFFFF true (decide ((w.page q).state = .stale)) := by
  have hq : (q * 64 + c) / 64 = q := by omega
  have hserve := serveCell_known (s := w) hf (by rwa [hq]) ReadRun.empty
  rw [serveExchange_eq (a := exchanged q c v) hw hserve rfl rfl]
  simp only [ReadRun.passing, ReadRun.fault, ReadRun.empty, hq, Bool.false_or, List.nil_append]
  rfl

/-- Such a cell that is sound. -/
theorem serveExchange_intact {tag : Byte} {q c : Nat} {v : Word} {cycle : Half} {w : State} (hc : c < 64)
    (hw : s.countHost.setJob none = w) (hf : w.forwarded (q * 64 + c) = none) (hall : (w.page q).suspectAll = false)
    (hl : q * 64 + c ∉ w.suspects) (hd : (w.cell (q * 64 + c)).damage = .intact) :
    s.serveExchange tag (exchanged q c v) cycle [] =
      w.endExchange tag (exchanged q c v) (w.cell (q * 64 + c)).value false (decide ((w.page q).state = .stale)) := by
  have hq : (q * 64 + c) / 64 = q := by omega
  have hserve := serveCell_unknown (s := w) hf (by rwa [hq]) hl ReadRun.empty
  rw [hd] at hserve
  rw [serveExchange_eq (a := exchanged q c v) hw hserve rfl rfl]
  simp only [ReadRun.passing, ReadRun.serve, ReadRun.empty, hq, Bool.false_or, List.nil_append]
  rfl

/-- An admitted EXCHANGE whose old value must come from the store reads it in its own event, where the arbiter may grant it. -/
theorem onExchange_reads {ups : List Upset} {q c : Nat} {v : Word}
    (hadm : (s.working.setCursor none).admitExchange r = .ok (exchanged q c v))
    (hf : s.forwarded (q * 64 + c) = none) (hr : (s.page q).state ≠ .restoring) (hmay : s.hostMay) :
    s.working.onExchange r ups =
      (s.working.setCursor none).serveExchange r.tag (exchanged q c v) (s.lane.lastClosed + 1) ups := by
  have hf' : (s.working.setCursor none).forwarded (cellAddr (exchanged q c v).page (exchanged q c v).offset) = none := hf
  have hr' : ¬ ((s.working.setCursor none).page (exchanged q c v).page).state = .restoring := hr
  have hturn : (s.working.setCursor none).hostTurn = true := hostTurn_of_hostMay hmay
  simp only [State.onExchange, hadm, hf', hr', hturn, if_true, if_false]
  rfl

/-- An EXCHANGE answered in its own event on a part `w` that differs from its beginning in the count of the arbiter at most. -/
theorem exec_exchange_posts {ups : List Upset} {n : Nat} {a : WriteArgs} {old : Word} {faulted stale : Bool}
    (hstill : s.still) (hs : s.serves .exchange r)
    (hd : s.working.onExchange r ups =
      ((s.setLink s.link.cleared).setHostGrants n).endExchange r.tag a old faulted stale) :
    exec (.exchange r ups) s = .next
      (((((s.setLink { s.link with cursor := none }).setHostGrants n).postEntry a)).replying .exchange r.tag .accepted
        (.exchange old faulted stale)) := by
  have ⟨_, _, hj, h2, _⟩ := hs
  have hstill' : (((s.setLink s.link.cleared).setHostGrants n).postEntry a).still :=
    still_postEntry (s := (s.setLink s.link.cleared).setHostGrants n) hstill a
  exact congrArg Host.Outcome.next
    (event_reply_same (u := ((s.setLink s.link.cleared).setHostGrants n).postEntry a) (st := .accepted) hs hd rfl hj h2 rfl
      (by decide) hstill' rfl rfl rfl rfl)

end Exchange

/-- Settles O10: the checks are those of a WRITE; an admitted EXCHANGE is answered from the queue, from the store, or waits. -/
theorem exchangeAnswersTheOldValueAndPosts : Obligations.ExchangeAnswersTheOldValueAndPosts := by
  intro s r p o b3 b2 b1 b0 hstill hs hb a u posted granted stale refusal
  have ⟨_, _, hj, h2, hout, _⟩ := hs
  have hadm : (s.working.setCursor none).admitExchange r = _ := admitExchange_eq (s.working.setCursor none) hb
  change (s.working.setCursor none).admitExchange r = (match refusal with | some st => _ | none => _) at hadm
  have ho : refusal = none → o.toNat < 64 := by
    intro h
    by_contra hno
    simp [refusal, show 63 < o.toNat by omega] at h
  have hw : (s.working.setCursor none).countHost.setJob none = (s.setLink s.link.cleared).setHostGrants s.hostGrantsNext := 
    setJob_none_of_idle (s := (s.working.setCursor none).countHost) hj
  refine ⟨fun st ups hst => ?_, fun old ups hok hf => ?_, fun hok hf hr hmay hk => ?_,
    fun hok hf hr hmay hall hl hd' => ?_, fun ups hok hf hr => ?_⟩
  · rw [hst] at hadm
    have hd : s.working.onExchange r ups = (s.setLink s.link.cleared).refuse .exchange r.tag st := by
      simp only [State.onExchange, hadm]; rfl
    have hne : st ≠ .starting := by
      rintro rfl
      simp only [refusal] at hst
      split_ifs at hst <;> simp at hst
    exact congrArg Host.Outcome.next (event_reply_of_link (l := s.link.cleared) hs hstill hd rfl hj h2 hne)
  · rw [hok] at hadm
    have hf' : (s.working.setCursor none).forwarded (p.toNat * 64 + o.toNat) = some old := hf
    rw [exec_exchange_posts (n := s.hostGrants) (a := exchanged p.toNat o.toNat (word b3 b2 b1 b0)) hstill hs
      (by simp only [State.onExchange, hadm, exchanged, cellAddr, hf']; rfl), postEntry_eq]
    rfl
  · rw [hok] at hadm
    have hd := onExchange_reads (s := s) (ups := []) hadm hf hr hmay
    rw [serveExchange_known (ho hok) hw hf hk] at hd
    rw [exec_exchange_posts hstill hs hd, postEntry_eq]
    rfl
  · rw [hok] at hadm
    have hd := onExchange_reads (s := s) (ups := []) hadm hf hr hmay
    rw [serveExchange_intact (ho hok) hw hf hall hl hd'] at hd
    rw [exec_exchange_posts hstill hs hd, postEntry_eq]
    rfl
  · rw [hok] at hadm
    have hf' : (s.working.setCursor none).forwarded (p.toNat * 64 + o.toNat) = none := hf
    have hr' : ((s.working.setCursor none).page p.toNat).state = .restoring := hr
    have hd : s.working.onExchange r ups = (s.setLink s.link.cleared).setJob
        (some (.exchange r.tag p.toNat o.toNat (word b3 b2 b1 b0) (s.lane.lastClosed + 1) true ups)) := by
      simp only [State.onExchange, hadm, exchanged, cellAddr, hf', hr', if_true]; rfl
    exact congrArg Host.Outcome.next
      (event_wait hs hd hout.2 rfl rfl (still_setLink.mpr hstill) rfl rfl rfl rfl)

section Held

variable {s : State} {tag : Byte} {page offset : Nat} {v : Word} {cycle : Half} {ups : List Upset}

/-- An EXCHANGE held for a restore that has ended is given its host read. -/
theorem pick_held (hj : s.link.job = some (.exchange tag page offset v cycle true ups))
    (hr : (s.page page).state ≠ .restoring) (hmay : s.hostMay) : s.pick = some .hostRead := by
  have hwaits : s.hostReadWaits = true := by simp [State.hostReadWaits, hj, hr]
  simp only [State.pick, State.pickHost, hwaits, if_true, hostTurn_of_hostMay hmay]

/-- Its event, from what the read answers: the entry is posted, and the reply begun. -/
theorem exec_heldExchange {old : Word} {faulted stale : Bool} (hstill : s.still) (hout : s.settledOutputs)
    (h2 : s.link.second = none) (hlive : s.link.live = true)
    (hj : s.link.job = some (.exchange tag page offset v cycle true ups)) (hr : (s.page page).state ≠ .restoring)
    (hmay : s.hostMay)
    (hserve : s.serveExchange tag (exchanged page offset v) cycle [] =
      (s.countHost.setJob none).endExchange tag (exchanged page offset v) old faulted stale) :
    exec (.heldExchangeRead []) s = .next
      (((s.countHost.setJob none).postEntry (exchanged page offset v)).replying .exchange tag .accepted
        (.exchange old faulted stale)) := by
  have hheld : s.heldExchange [] = ((s.countHost.setJob none).postEntry (exchanged page offset v)).answer .exchange tag
      .accepted (.exchange old faulted stale) := by
    simp only [State.heldExchange, hj]
    exact hserve
  have hstill' : ((s.countHost.setJob none).postEntry (exchanged page offset v)).still :=
    still_postEntry (s := s.countHost.setJob none) hstill _
  have hev : s.exchangeHeld = true ∧ s.pick = some .hostRead :=
    ⟨by simp only [State.exchangeHeld, hj], pick_held hj hr hmay⟩
  have hlines : (((s.countHost.setJob none).postEntry (exchanged page offset v)).replying .exchange tag .accepted
      (.exchange old faulted stale)).drivePins = _ := drivePins_of_lines hout.1
  rw [show exec (.heldExchangeRead []) s = if _ then _ else _ from rfl, if_pos hev,
    event_answered (f := fun t => t.heldExchange []) hheld (settle_of_still (still_setLink.mpr hstill')) ⟨h2, rfl⟩ hlive
      (by decide) hout.2.notes_eq]
  exact congrArg _ hlines

end Held

/-- Settles O11: with the restore over the held EXCHANGE reads its cell and posts its entry. -/
theorem heldExchangeReadsAndPosts : Obligations.HeldExchangeReadsAndPosts := by
  intro s tag page offset v cycle ups hstill hphase hout h2 hlp hlive hj ho hr hmay hf a posted stale
  refine ⟨fun hk => ?_, fun hall hl hd => ?_⟩
  · rw [exec_heldExchange hstill hout h2 hlive hj hr hmay (serveExchange_known ho rfl hf hk), postEntry_eq]
    rfl
  · rw [exec_heldExchange hstill hout h2 hlive hj hr hmay (serveExchange_intact ho rfl hf hall hl hd), postEntry_eq]
    rfl

end Sys2Proof.Machine
end

section
/-! FILL_PAGE: one page of the FILL in hand is overwritten, and the reply comes after the last. -/

namespace Sys2Proof.Machine

/-! ### A page overwritten whole (R7, R14) -/

/-- The record of a page just overwritten: SOUND, dirty and written, with no suspect cell. -/
def PageRec.overwritten (r : PageRec) : PageRec :=
  { r with state := .sound, dirty := true, written := true, suspectAll := false }

/-- A page whose cells take the given values, as a fill page or a transfer-in leaves it. -/
def State.overwrite (s : State) (p : Nat) (vs : List Word) : State :=
  ((s.writeRun (cellAddr p 0) vs).clearSuspects p).mapPage p PageRec.overwritten

/-- The state with the image `m` and the page table `g`, and no suspect cell in page `p`. -/
def State.renewed (s : State) (m : List (Nat × Option StoredCell)) (g : List (Nat × PageRec)) (p : Nat) : State :=
  { s with image := m, pages := g, suspects := s.suspects.filter (fun a => decide (a / 64 ≠ p)) }

/-- Overwriting a page changes its cells, its record and the suspect list, and nothing else. -/
theorem overwrite_eq (s : State) (p : Nat) (vs : List Word) :
    ∃ m g, s.overwrite p vs = s.renewed m g p ∧ s.onlyPage g p PageRec.overwritten ∧
      ∀ b, (s.setImage m).cell b =
        if h : p * 64 ≤ b ∧ b < p * 64 + vs.length then { value := vs[b - p * 64]'(by omega), damage := .intact }
        else s.cell b := by
  have hrun := writeRun_eq s (p * 64) vs
  refine ⟨(s.writeRun (p * 64) vs).image, (s.mapPage p PageRec.overwritten).pages, ?_,
    onlyPage_mapPage (by simp [PageRec.overwritten, PageRec.fresh]), fun b => ?_⟩
  · have hfilter : (fun a : Nat => a / 64 != p) = fun a => decide (a / 64 ≠ p) := by
      funext a
      simp [bne, beq_eq_decide]
    rw [State.overwrite, show cellAddr p 0 = p * 64 from rfl, hrun, State.clearSuspects, hfilter]
    rfl
  · rw [← hrun, cell_writeRun]

/-! ### A reply that is lost, and one that is begun -/

/-- An answer whose interval is closed leaves no trace (R154). -/
theorem closeEvent_of_lost {s : State} {k : ReqKind} {tag : Byte} {st : Status} {b : ReplyBody} (hq : s.quiet)
    (hl : s.link.live = false) : (s.answer k tag st b).closeEvent = s.drivePins := by
  have hnone : (s.answer k tag st b).buildReply = s := by
    have hlink : ({ s.link with answer := none } : Link) = s.link := by rw [← hq.1]
    rw [show (s.answer k tag st b).buildReply = if s.link.live = true then _ else s.setLink { s.link with answer := none }
      from rfl, if_neg (by simp [hl]), hlink]
    rfl
  have howed : (s.answer k tag st b).frameOwed = s.answer k tag st b := by
    simp only [State.frameOwed, State.answer, State.setLink_notes, hq.2.2, Bool.false_eq_true, if_false]
  have hend := closeEvent_of_quiet hq
  have howed' : s.frameOwed = s := by
    simp only [State.frameOwed, hq.2.2, Bool.false_eq_true, if_false]
  have hbuild : s.buildReply = s := by simp only [State.buildReply, hq.1]
  simp only [State.closeEvent, howed, hnone, howed', hbuild] at hend ⊢
  exact hend

/-- An event that answers a request, owes nothing else and leaves the lines true: the reply is begun if its interval
is still open. -/
theorem event_answered_same {s u : State} {f : State → State} {k : ReqKind} {tag : Byte} {st : Status} {b : ReplyBody}
    (hf : f s = u.answer k tag st b) (hs : u.still) (hr : u.readsDone) (hst : st ≠ .starting) (hq : u.quiet)
    (hl : u.linesTrue) : s.event f = if u.link.live = true then u.replying k tag st b else u := by
  have hset : (u.answer k tag st b).settled := settle_of_still (still_setLink.mpr hs)
  split_ifs with hlive
  · rw [event_answered hf hset hr hlive hst hq.notes_eq]
    exact drivePins_of_lines (lines_replying hl)
  · rw [event_of_settled (by rw [hf]; exact hset) (by rw [hf]; exact hr), hf,
      closeEvent_of_lost hq (Bool.not_eq_true _ ▸ hlive)]
    exact drivePins_of_lines hl

/-! ### The fill page grant -/

section FillPage

variable {s : State} {tag : Byte} {v : Word} {pages : List Nat} {p : Nat} {rest : List Nat}

/-- A FILL that no queued entry holds up is given its next page. -/
theorem pick_fillPage (hmay : s.hostMay) (hj : s.link.job = some (.fill tag v pages (p :: rest)))
    (hfree : ∀ g, s.regionOf p = some g → ∀ e ∈ s.queue.entries, ¬ (g.first ≤ e.page ∧ e.page ≤ g.last)) :
    s.pick = some .fillPage := by
  have hread : s.hostReadWaits = false := by simp only [State.hostReadWaits, hj]
  have hfill : s.fillWaits = true := by
    simp only [State.fillWaits, hj]
    cases hg : s.regionOf p with
    | none => simp
    | some g =>
      have := hfree g hg
      simpa using this
  simp only [State.pick, State.pickHost, hread, hfill, Bool.false_eq_true, if_false, if_true, hostTurn_of_hostMay hmay]

/-- The part `w` that a fill page leaves of `s`: the page overwritten, and the journal broken where the page is journalled. -/
def State.filled (s : State) (m : List (Nat × Option StoredCell)) (g : List (Nat × PageRec)) (p : Nat) : State :=
  (s.renewed m g p).setJournal
    (if s.isJournalled p then { s.journal with state := .broken, records := [], base := none } else s.journal)

/-- A fill page grant overwrites its page; then the FILL answers, or waits for its next page. -/
theorem fillNext_eq (hj : s.link.job = some (.fill tag v pages (p :: rest))) :
    ∃ m g, s.onlyPage g p PageRec.overwritten ∧
      (∀ b, (s.setImage m).cell b =
        if p * 64 ≤ b ∧ b < p * 64 + 64 then { value := v, damage := .intact } else s.cell b) ∧
      s.fillNext =
        if rest = [] then ((s.countHost.filled m g p).setJob none).answer .fill tag .ok .empty
        else (s.countHost.filled m g p).setJob (some (.fill tag v pages rest)) := by
  obtain ⟨m, g, hw, hg, hm⟩ := overwrite_eq s.countHost p (List.replicate 64 v)
  refine ⟨m, g, hg, fun b => ?_, ?_⟩
  · rw [show (s.setImage m).cell b = (s.countHost.setImage m).cell b from rfl, hm b]
    simp only [List.length_replicate, List.getElem_replicate, dite_eq_ite]
    rfl
  · have hbreak : (if (s.countHost.overwrite p (List.replicate 64 v)).isJournalled p = true then
        (s.countHost.overwrite p (List.replicate 64 v)).breakJournal
        else s.countHost.overwrite p (List.replicate 64 v)) = s.countHost.filled m g p := by
      rw [hw]
      by_cases hjn : s.isJournalled p = true
      · rw [if_pos (show (s.countHost.renewed m g p).isJournalled p = true from hjn), State.filled,
          if_pos (show s.countHost.isJournalled p = true from hjn)]
        rfl
      · rw [if_neg (show ¬ (s.countHost.renewed m g p).isJournalled p = true from hjn), State.filled,
          if_neg (show ¬ s.countHost.isJournalled p = true from hjn)]
        rfl
    simp only [State.fillNext, hj]
    rw [← hbreak]
    rfl

/-- Settles O27: the page overwritten, then the reply after the last page and nothing after another. -/
theorem fillPageWritesOnePage : Obligations.FillPageWritesOnePage := by
  intro s tag v pages p rest hstill hflight hphase hout h2 hmay hj hfree
  obtain ⟨m, g, hg, hm, hnext⟩ := fillNext_eq hj
  refine ⟨m, g, hm, fun q => ?_, ?_⟩
  · rw [hg q]
    split_ifs with hq
    · rw [hq]; rfl
    · rfl
  intro u
  have hexec : exec .fillPage s = .next (s.event State.fillNext) := if_pos (pick_fillPage hmay hj hfree)
  have hstill' : ∀ j, ((s.countHost.filled m g p).setJob j).still := fun j =>
    still_of_blocks hstill hflight rfl rfl rfl rfl rfl hstill.2.1
  by_cases he : rest = []
  · have hu : u = (s.countHost.filled m g p).setJob none := by
      simp only [u, he, if_true]
      rfl
    rw [if_pos he] at hnext
    have hend := event_answered_same (f := State.fillNext) hnext (hstill' none) ⟨h2, rfl⟩ (by decide) hout.2 hout.1
    rw [← hu] at hend
    rw [hexec, hend]
    exact ⟨fun hne => absurd he hne, fun _ hlive => by rw [if_pos hlive], fun _ hlive =>
      by rw [if_neg (by rw [show u.link.live = s.link.live from rfl, hlive]; decide)]⟩
  · have hu : u = (s.countHost.filled m g p).setJob (some (.fill tag v pages rest)) := by
      simp only [u, he, if_false]
      rfl
    rw [if_neg he] at hnext
    have hend : s.event State.fillNext = s.fillNext :=
      event_same (by rw [hnext]; exact settle_of_still (hstill' _)) (by rw [hnext]; exact ⟨h2, rfl⟩)
        (by rw [hnext]; exact hout.2) hout.1 (by rw [hnext]; rfl) (by rw [hnext]; rfl) (by rw [hnext]; rfl)
        (by rw [hnext]; rfl)
    rw [hexec, hend, hnext, ← hu]
    exact ⟨fun _ => rfl, fun h => absurd h he, fun h => absurd h he⟩

end FillPage

end Sys2Proof.Machine
end

section
/-! The ports and the lane: frames handed over, moves of the lane outside FORMING and ACTIVE, and the end of a reception. -/

namespace Sys2Proof.Machine

/-! ### What the end of an event looks at -/

/-- `u` has what the end of an event looks at as `s` has it, but for the ALERT condition: the host link, the notes, the output
lines and the conditions of PERMIT and STARTED. -/
structure State.EndsAs (u s : State) : Prop where
  phase : u.phase = s.phase
  link : u.link = s.link
  notes : u.notes = s.notes
  pins : u.pins = s.pins
  permit : u.permitCond = s.permitCond

namespace State.EndsAs

variable {s u w : State}

theorem trans (h : u.EndsAs w) (h' : w.EndsAs s) : u.EndsAs s :=
  ⟨h.1.trans h'.1, h.2.trans h'.2, h.3.trans h'.3, h.4.trans h'.4, h.5.trans h'.5⟩

theorem heard (s : State) (p : PortId) : (s.heard p).EndsAs s := ⟨rfl, rfl, rfl, rfl, rfl⟩

theorem setPorts (s : State) (x : Ports) : (s.setPorts x).EndsAs s := ⟨rfl, rfl, rfl, rfl, rfl⟩

theorem setXfer (s : State) (x : Transfer) : (s.setXfer x).EndsAs s := ⟨rfl, rfl, rfl, rfl, rfl⟩

theorem receptionOver (s : State) (page : Option Nat) (why : Reason) : (s.receptionOver page why).EndsAs s :=
  ⟨rfl, rfl, rfl, rfl, rfl⟩

/-- A move between two states other than ACTIVE. -/
theorem rested {x : LaneState} (hs : s.lane.state ≠ .active) (hx : x ≠ .active) : (s.rested x).EndsAs s :=
  ⟨rfl, rfl, rfl, rfl, by simp [State.permitCond, State.rested, hs, hx]⟩

variable (h : u.EndsAs s)
include h

theorem quiet (hq : s.quiet) : u.quiet := by
  simpa only [State.quiet, h.link, h.notes] using hq

theorem readsDone (hr : s.readsDone) : u.readsDone := by
  simpa only [State.readsDone, State.readWaits, h.link] using hr

/-- Only ALERT follows at the end of the event. -/
theorem drivePins_eq (hl : s.linesTrue) : u.drivePins = u.withAlert := by
  rw [drivePins_alert hl h.pins h.permit h.phase, ← h.pins]
  rfl

theorem drivePins_same (hl : s.linesTrue) (ha : u.alertCond = s.alertCond) : u.drivePins = u :=
  Machine.drivePins_same hl h.pins h.permit h.phase ha

end State.EndsAs

/-! ### Frames handed over -/

section Hand

variable (s : State)

/-- The ports after a frame is handed to one of them (R67, R68). -/
def State.portsWith (s : State) (p : PortId) (f : LaneFrame) : Ports :=
  match s.laneNumber with
  | none => s.ports
  | some n => s.ports.put p ((s.ports.at p).hand { lane := n, frame := f })

/-- Handing a frame over changes the ports and nothing else. -/
theorem hand_eq (p : PortId) (f : LaneFrame) : s.hand p f = s.setPorts (s.portsWith p f) := by
  unfold State.hand State.portsWith
  cases s.laneNumber <;> rfl

/-- So does handing it to both. -/
theorem handBoth_eq (f : LaneFrame) :
    s.handBoth f = s.setPorts ((s.setPorts (s.portsWith .one f)).portsWith .two f) := by
  rw [State.handBoth, hand_eq, hand_eq]
  rfl

theorem hand_endsAs (p : PortId) (f : LaneFrame) : (s.hand p f).EndsAs s := by
  rw [hand_eq]
  exact .setPorts s _

/-- Stillness does not look at the ports. -/
theorem still_hand {s : State} (h : s.still) (p : PortId) (f : LaneFrame) : (s.hand p f).still := by
  rw [hand_eq]; exact h

/-- The lines of a state whose frames have gone to both ports. -/
theorem drivePins_handBoth (f : LaneFrame) : (s.handBoth f).drivePins = s.drivePins.handBoth f := by
  rw [handBoth_eq, handBoth_eq]; rfl

theorem withAlert_handBoth (f : LaneFrame) : (s.handBoth f).withAlert = s.withAlert.handBoth f := by
  rw [handBoth_eq, handBoth_eq]; rfl

theorem handBoth_setNotes (x : Notes) (f : LaneFrame) : (s.setNotes x).handBoth f = (s.handBoth f).setNotes x := by
  rw [handBoth_eq, handBoth_eq]; rfl

/-- Notes set and cleared again leave no trace behind the frames. -/
theorem handBoth_setNotes_notes (x : Notes) (f : LaneFrame) :
    ((s.handBoth f).setNotes x).setNotes s.notes = s.handBoth f := by
  rw [handBoth_eq]; rfl

/-- A part with a partner hands a frame for it to the partner's port. -/
theorem handPartner_eq {s : State} {d : Nat} {p : PortId} (h : s.xfer.partner = some (d, p)) (f : LaneFrame) :
    s.handPartner f = s.hand p f := by
  simp only [State.handPartner, h]

end Hand

/-! ### Moves of the lane -/

section Moves

variable {s : State}

/-- The notes of an event that has moved the lane (R70). -/
def Notes.ofMove : Notes := { moved := true, withdrawn := false }

/-- A move between two states in which the lane does not vote: the slots of the peers empty, and a STATE frame owed. -/
theorem moveLane_eq_rested {x : LaneState} (hne : s.lane.state ≠ x) (hwas : voting s.lane.state = false)
    (hx : voting x = false) (hn : s.notes.withdrawn = false) :
    s.moveLane x = (s.rested x).setNotes Notes.ofMove := by
  have hna : s.lane.state ≠ .active := by
    intro h
    simp [voting, h] at hwas
  have hxa : x ≠ .active := by
    intro h
    simp [voting, h] at hx
  have hshift : s.shiftLane x = (s.rested x).setNotes Notes.ofMove := by
    unfold State.shiftLane
    simp only [hne, hna, hxa, hwas, hx, Bool.false_and, Bool.false_eq_true, if_false, false_or, false_and]
    have hnotes : ({ s.notes with moved := true } : Notes) = Notes.ofMove := by
      rw [Notes.ofMove, ← hn]
    rw [hnotes]
    rfl
  unfold State.moveLane
  simp only [hne, hshift, hx, Bool.false_eq_true, if_false, false_and]

theorem still_rested (h : s.still) (x : LaneState) : (s.rested x).still := h


/-- An event that has moved the lane and answers nothing ends with its STATE frames. -/
theorem closeEvent_of_moved (hq : s.quiet) :
    (s.setNotes Notes.ofMove).closeEvent = (s.handBoth (.state s.lane.state s.lane.lastClosed)).drivePins := by
  have howed : (s.setNotes Notes.ofMove).frameOwed = s.setNotes Notes.ofMove := rfl
  have hbuild : (s.setNotes Notes.ofMove).buildReply = s.setNotes Notes.ofMove := by
    simp only [State.buildReply, State.setNotes_link, hq.1]
  rw [State.closeEvent, howed, hbuild, State.tellState, if_pos (show (s.setNotes Notes.ofMove).notes.moved = true from rfl),
    handBoth_setNotes, ← hq.notes_eq, handBoth_setNotes_notes]
  rfl

/-- One that answers a request ends with its reply and its STATE frames. -/
theorem closeEvent_of_moved_answer {k : ReqKind} {tag : Byte} {st : Status} {b : ReplyBody}
    (hn : s.notes = { moved := false, withdrawn := false }) (hl : s.link.live = true) (hst : st ≠ .starting) :
    ((s.setNotes Notes.ofMove).answer k tag st b).closeEvent =
      ((s.replying k tag st b).handBoth (.state s.lane.state s.lane.lastClosed)).drivePins := by
  have howed : ((s.setNotes Notes.ofMove).answer k tag st b).frameOwed = (s.setNotes Notes.ofMove).answer k tag st b := rfl
  have hbuild : ((s.setNotes Notes.ofMove).answer k tag st b).buildReply =
      (s.replying k tag st b).setNotes Notes.ofMove := by
    simp [State.buildReply, State.answer, State.replying, hl, hst]
    rfl
  rw [State.closeEvent, howed, hbuild, State.tellState,
    if_pos (show ((s.replying k tag st b).setNotes Notes.ofMove).notes.moved = true from rfl), handBoth_setNotes,
    ← hn]
  exact congrArg State.drivePins (handBoth_setNotes_notes (s.replying k tag st b) _ _)

end Moves

/-! ### The end of a reception (R137) -/

section Reception

variable {s : State}

/-- The blocks of a part whose transfer engine has changed stand still, where it neither donates nor checks. -/
theorem still_setXfer {x : Transfer} (h : s.still) (hs : s.xfer.role ≠ .donor) (hd : x.role ≠ .donor)
    (hc : x.role ≠ .receiver .checking) : (s.setXfer x).still := by
  obtain ⟨hcs, hrest, hflight, -, -, hrun, herase⟩ := h
  refine ⟨?_, hrest, hflight, ?_, ?_, hrun, herase⟩
  · unfold State.closeStands at hcs ⊢
    simp only [State.setXfer_lane, State.setXfer_queue, State.setXfer_xfer]
    split <;> simp_all
  · simp [State.donorStands, hd]
  · simp [State.checkStands, hc]

variable (page : Option Nat) (why : Reason)

/-- A part whose reception is over stands still. -/
theorem still_receptionOver (h : s.still) (hs : s.xfer.role ≠ .donor) : (s.receptionOver page why).still :=
  have hfresh : (s.setXfer Transfer.fresh).still := still_setXfer h hs (by decide) (by decide)
  hfresh

/-- A reception that ends with room for its fault. -/
theorem endReception_eq {abort : Bool} (hroom : s.roomFor 16) :
    s.endReception abort page why =
      let t := (if abort then s.handPartner (.joinAbort why) else s).receptionOver page why
      if s.lane.state = .joining then t.moveLane .standby else t := by
  obtain ⟨hprim, hlow⟩ := hroom
  obtain ⟨x, hx⟩ : ∃ x, (if abort then s.handPartner (.joinAbort why) else s) = s.setPorts x := by
    split_ifs
    · unfold State.handPartner
      split
      · exact ⟨s.ports, rfl⟩
      · exact ⟨_, hand_eq ..⟩
    · exact ⟨s.ports, rfl⟩
  have hraise : (s.setPorts x).clearTransfer.raise .joinFailed FaultKind.joinFailed.weight =
      (s.setPorts x).freed.raised .joinFailed 16 := raise_low hlow
  have hframe : ∀ f, ((s.setPorts x).freed.raised .joinFailed 16).placeFrame f =
      ((s.setPorts x).freed.raised .joinFailed 16).framed f := fun f => placeFrame_empty f hprim
  simp only [State.endReception, hx, hraise, hframe]
  rfl

end Reception

end Sys2Proof.Machine
end

section
/-! A receiver: the JOIN-GRANT, the PAGE frames, and the transfer-in grants that write them. -/

namespace Sys2Proof.Machine

section Frames

variable {s : State} {n : Nat} {code : Byte} {f : RxFrame}

/-- A frame that passes every test is taken by a port that has ended it; where the part then stands still, the event ends. -/
theorem frameEvent_of_taken (h : s.takesFrame n code f) {take : State → State} {t : State}
    (ht : take (s.heard f.port) = t) (hs : t.still) (hr : t.readsDone) : s.frameEvent code f take = t.closeEvent := by
  obtain ⟨hready, hlane, hcheck, hlen, hfrom⟩ := h
  have hverdict : verdict n code f = .taken := by
    simp [verdict, ← hcheck, ← hfrom, hlen]
  have hrec : s.receive code f take = t := by
    rw [← ht]
    simp only [State.receive]
    rw [show (s.setTaking f.port false).laneNumber = some n from hlane]
    exact if_pos hverdict
  rw [State.frameEvent, if_pos hready.1,
    event_of_settled (f := fun t => t.receive code f take) (by rw [hrec]; exact settle_of_still hs) (by rw [hrec]; exact hr),
    hrec]

/-- A frame from the partner's port. -/
theorem fromPartner_of {d : Nat} {p : PortId} (h : s.xfer.partner = some (d, p)) : s.fromPartner p = true := by
  simp [State.fromPartner, h]

theorem heard_still (h : s.still) (p : PortId) : (s.heard p).still := h

/-- A frame whose taking moves nothing: ALERT follows. -/
theorem frameEvent_alert (h : s.takesFrame n code f) {take : State → State} {t : State}
    (ht : take (s.heard f.port) = t) (hs : t.still) (he : t.EndsAs s) : s.frameEvent code f take = t.withAlert := by
  have ⟨⟨_, hout, hreads⟩, _⟩ := h
  rw [frameEvent_of_taken h ht hs (he.readsDone hreads), closeEvent_of_quiet (he.quiet hout.2), he.drivePins_eq hout.1]

/-- And nothing does where the fault store is as it was. -/
theorem frameEvent_same (h : s.takesFrame n code f) {take : State → State} {t : State}
    (ht : take (s.heard f.port) = t) (hs : t.still) (he : t.EndsAs s) (hf : t.faults = s.faults) :
    s.frameEvent code f take = t := by
  have ⟨⟨_, hout, hreads⟩, _⟩ := h
  rw [frameEvent_of_taken h ht hs (he.readsDone hreads), closeEvent_of_quiet (he.quiet hout.2)]
  exact he.drivePins_same hout.1 (by simp only [State.alertCond, hf])

/-- A frame whose taking moves the lane between two states in which it does not vote: the STATE frames go out. -/
theorem frameEvent_moved (h : s.takesFrame n code f) {take : State → State} {w : State} {x : LaneState}
    (ht : take (s.heard f.port) = w.moveLane x) (hs : w.still) (he : w.EndsAs s) (hne : w.lane.state ≠ x)
    (hwas : voting w.lane.state = false) (hx : voting x = false) :
    s.frameEvent code f take = ((w.rested x).handBoth (.state x w.lane.lastClosed)).withAlert := by
  have ⟨⟨_, hout, hreads⟩, _⟩ := h
  have hactive : ∀ y, voting y = false → y ≠ .active := by
    rintro y hy rfl
    exact absurd hy (by decide)
  have hrest : (w.rested x).EndsAs s := (State.EndsAs.rested (hactive _ hwas) (hactive _ hx)).trans he
  rw [moveLane_eq_rested hne hwas hx (he.quiet hout.2).2.2] at ht
  have hstill : ((w.rested x).setNotes Notes.ofMove).still := hs
  rw [frameEvent_of_taken h ht hstill (hrest.readsDone hreads), closeEvent_of_moved (hrest.quiet hout.2),
    drivePins_handBoth, hrest.drivePins_eq hout.1, ← withAlert_handBoth]
  rfl

end Frames

section Receiver

variable {s : State} {n d : Nat} {f : RxFrame}

/-- A reception ended by a frame outside JOINING: the JOIN-ABORT, the fault and its frame, and ALERT. -/
theorem frameEvent_receptionOver {code : Byte} {take : State → State} {page : Option Nat} {why : Reason}
    (h : s.takesFrame n code f) (hstill : s.still) (hp : s.xfer.partner = some (d, f.port))
    (hrole : s.xfer.role ≠ .donor) (hroom : s.roomFor 16) (hl : s.lane.state ≠ .joining)
    (ht : take (s.heard f.port) = (s.heard f.port).endReception true page why) :
    s.frameEvent code f take =
      (((s.heard f.port).hand f.port (.joinAbort why)).receptionOver page why).withAlert := by
  rw [endReception_eq (s := s.heard f.port) (page := page) (why := why) hroom,
    if_neg (show ¬ (s.heard f.port).lane.state = .joining from hl), if_pos rfl,
    handPartner_eq (s := s.heard f.port) hp] at ht
  have hhand := (hand_endsAs (s.heard f.port) f.port (.joinAbort why)).trans (.heard s f.port)
  exact frameEvent_alert h ht
    (still_receptionOver _ _ (still_hand (heard_still hstill _) _ _) (by rw [hand_eq]; exact hrole))
    ((State.EndsAs.receptionOver _ _ _).trans hhand)

/-- A reception ended by a frame in JOINING, which takes the lane back to STANDBY. -/
theorem frameEvent_backToStandby {code : Byte} {take : State → State} {page : Option Nat} {why : Reason}
    (h : s.takesFrame n code f) (hstill : s.still) (hp : s.xfer.partner = some (d, f.port))
    (hrole : s.xfer.role ≠ .donor) (hroom : s.roomFor 16) (hl : s.lane.state = .joining)
    (ht : take (s.heard f.port) = (s.heard f.port).endReception true page why) :
    s.frameEvent code f take =
      (((s.heard f.port).hand f.port (.joinAbort why)).receptionOver page why).backToStandby.withAlert := by
  rw [endReception_eq (s := s.heard f.port) (page := page) (why := why) hroom,
    if_pos (show (s.heard f.port).lane.state = .joining from hl), if_pos rfl,
    handPartner_eq (s := s.heard f.port) hp] at ht
  have hhand := (hand_endsAs (s.heard f.port) f.port (.joinAbort why)).trans (.heard s f.port)
  have hstate : (((s.heard f.port).hand f.port (.joinAbort why)).receptionOver page why).lane.state = .joining := by
    rw [hand_eq]; exact hl
  exact frameEvent_moved h ht
    (still_receptionOver _ _ (still_hand (heard_still hstill _) _ _) (by rw [hand_eq]; exact hrole))
    ((State.EndsAs.receptionOver _ _ _).trans hhand) (by rw [hstate]; decide) (by rw [hstate]; decide) (by decide)

/-- A PAGE frame at a receiver in RECEIVING, from its partner's port. -/
theorem takePage_eq {b k : Byte} {rest : List Byte} {vs : List Word} (hr : s.xfer.role = .receiver .receiving)
    (hp : s.xfer.partner = some (d, f.port)) (hb : f.body = b :: k :: rest) (hv : wordsOfBytes rest = some vs) :
    s.takePage f =
      if s.isSigned b.toNat = false then s.endReception true (some b.toNat) .planMismatch
      else if 4 ≤ s.xfer.inbound.length then s.handPartner (.pageAgain b.toNat)
      else s.setXfer { s.xfer with inbound := s.xfer.inbound ++ [{ page := b.toNat, cells := vs }] } := by
  simp only [State.takePage, pageArgs, hb, hv, hr, fromPartner_of hp, and_self, if_true, Bool.not_eq_true']
  rfl

/-- A JOIN-GRANT at an asking receiver, from its partner's port. -/
theorem takeJoinGrant_eq (hr : s.xfer.role = .receiver .asking) (hp : s.xfer.partner = some (d, f.port)) :
    s.takeJoinGrant f =
      if grantArgs f.body ≠ some s.signedPages.length then s.endReception true none .planMismatch
      else if s.lane.close ≠ none ∨ s.inFlight = true then s.endReception true none .receiverBusy
      else (s.setXfer { s.xfer with role := .receiver .receiving, idle := true }).moveLane .joining := by
  simp only [State.takeJoinGrant, hr, fromPartner_of hp, and_self, if_true, Option.isSome_iff_ne_none]

/-- A transfer-in grant overwrites its page and moves it from the inbound list to the received set (R132). -/
theorem transferInNext_eq {x : InPage} {rest : List InPage} (hin : s.xfer.inbound = x :: rest)
    (hlen : x.cells.length = 64) :
    ∃ m g, s.onlyPage g x.page PageRec.overwritten ∧
      (∀ b, (s.setImage m).cell b =
        if x.page * 64 ≤ b ∧ b < x.page * 64 + 64 then
          { value := x.cells.getD (b - x.page * 64) 0, damage := .intact }
        else s.cell b) ∧
      s.transferInNext = (s.countNonHost.renewed m g x.page).setXfer
        { s.xfer with received := setAdd x.page s.xfer.received, inbound := rest } := by
  obtain ⟨m, g, hw, hg, hm⟩ := overwrite_eq s.countNonHost x.page x.cells
  refine ⟨m, g, hg, fun b => ?_, ?_⟩
  · rw [show (s.setImage m).cell b = (s.countNonHost.setImage m).cell b from rfl, hm b]
    simp only [hlen]
    split_ifs with h
    · rw [List.getD_eq_getElem _ _ (by omega)]
    · rfl
  · simp only [State.transferInNext, hin]
    rw [show s.countNonHost.transferInGrant x rest = (s.countNonHost.overwrite x.page x.cells).setXfer
      { (s.countNonHost.overwrite x.page x.cells).xfer with
        received := setAdd x.page (s.countNonHost.overwrite x.page x.cells).xfer.received, inbound := rest } from rfl, hw]
    rfl

end Receiver

/-- Settles O52: each frame is taken or ends the reception, and a transfer-in overwrites its page. -/
theorem receiverTakesGrantAndPages : Obligations.ReceiverTakesGrantAndPages := by
  intro s f n d hstill u
  have hheard : u.EndsAs s := .heard s f.port
  refine ⟨fun h hr hp hl => ?_, fun b k rest vs h hr hp hb hv => ?_, fun x rest hready hpick hflight hr hin hlen => ?_⟩
  · have hdonor : s.xfer.role ≠ .donor := by rw [hr]; decide
    have hlane : s.lane.state ≠ .joining ∧ voting s.lane.state = false := by rcases hl with hl | hl <;> rw [hl] <;> decide
    have ht : u.takeJoinGrant f = _ := takeJoinGrant_eq (s := u) hr hp
    refine ⟨fun hg hc hf => ?_, fun hg hroom => ?_, fun hg hbusy hroom => ?_⟩
    · have hidle : ¬ (u.lane.close ≠ none ∨ u.inFlight = true) := by
        rintro (h | h)
        · exact h hc
        · exact Bool.false_ne_true (hf.symm.trans h)
      rw [if_neg (not_not_intro (show grantArgs f.body = some u.signedPages.length from hg)), if_neg hidle] at ht
      have hstill' : (u.setXfer { s.xfer with role := .receiver .receiving, idle := true }).still :=
        still_setXfer (s := u) hstill hdonor (by simp) (by simp)
      have hend := frameEvent_moved h ht hstill' ((State.EndsAs.setXfer u _).trans hheard) hlane.1 hlane.2 (by decide)
      have ⟨⟨_, ⟨⟨_, halert, _⟩, _⟩, _⟩, _⟩ := h
      have hline : ∀ y, ((u.setXfer y).rested .joining).withAlert = (u.setXfer y).rested .joining :=
        fun _ => withAlert_of_lines halert
      rw [withAlert_handBoth, hline] at hend
      exact congrArg Host.Outcome.next hend
    · rw [if_pos (show grantArgs f.body ≠ some u.signedPages.length from hg)] at ht
      exact congrArg Host.Outcome.next (frameEvent_receptionOver h hstill hp hdonor hroom hlane.1 ht)
    · rw [if_neg (not_not_intro (show grantArgs f.body = some u.signedPages.length from hg)),
        if_pos (show u.lane.close ≠ none ∨ u.inFlight = true from hbusy)] at ht
      exact congrArg Host.Outcome.next (frameEvent_receptionOver h hstill hp hdonor hroom hlane.1 ht)
  · have hdonor : s.xfer.role ≠ .donor := by rw [hr]; decide
    have ht : u.takePage f = _ := takePage_eq (s := u) hr hp hb hv
    refine ⟨fun hsig hroom => ?_, fun hsig hfull => ?_, fun hsig hl hroom => ?_⟩
    · rw [if_neg (by rw [show u.isSigned _ = true from hsig]; decide),
        if_neg (show ¬ 4 ≤ u.xfer.inbound.length from Nat.not_le.mpr hroom)] at ht
      have hstill' : (u.setXfer { s.xfer with
          inbound := s.xfer.inbound ++ [{ page := b.toNat, cells := vs }] }).still :=
        still_setXfer (s := u) hstill hdonor hdonor (by rw [hr]; decide)
      exact congrArg Host.Outcome.next (frameEvent_same h ht hstill' ((State.EndsAs.setXfer u _).trans hheard) rfl)
    · rw [if_neg (by rw [show u.isSigned _ = true from hsig]; decide),
        if_pos (show 4 ≤ u.xfer.inbound.length from hfull), handPartner_eq (s := u) hp] at ht
      exact congrArg Host.Outcome.next
        (frameEvent_same h ht (still_hand (heard_still hstill _) _ _) ((hand_endsAs u _ _).trans hheard) (by rw [hand_eq]; rfl))
    · rw [if_pos (show u.isSigned _ = false from hsig)] at ht
      exact congrArg Host.Outcome.next (frameEvent_backToStandby h hstill hp hdonor hroom hl ht)
  · obtain ⟨m, g, hg, hm, hnext⟩ := transferInNext_eq hin hlen
    refine ⟨m, g, hm, hg, ?_⟩
    have ⟨_, hout, hreads⟩ := hready
    have hover : (s.countNonHost.renewed m g x.page).still :=
      still_of_blocks hstill hflight rfl rfl rfl rfl rfl hstill.2.1
    have hstill' := still_setXfer (x := { s.xfer with received := setAdd x.page s.xfer.received, inbound := rest }) hover
      (by change s.xfer.role ≠ _; rw [hr]; decide) (by rw [hr]; decide) (by rw [hr]; decide)
    have hend : s.event State.transferInNext = s.transferInNext :=
      event_same (by rw [hnext]; exact settle_of_still hstill') (by rw [hnext]; exact hreads) (by rw [hnext]; exact hout.2)
        hout.1 (by rw [hnext]; rfl) (by rw [hnext]; rfl) (by rw [hnext]; rfl) (by rw [hnext]; rfl)
    rw [show exec .transferIn s = .next (s.event State.transferInNext) from if_pos hpick, hend, hnext]
    rfl

end Sys2Proof.Machine
end

section
/-! What a check of a page's cells finds, and what it writes (R1, R41). -/

namespace Sys2Proof.Machine

section Scan

variable {skip : Nat → Bool} {p : Nat}

/-- A cell that a check with the skip test `skip` finds with the given damage, as the store `s` stands. -/
def State.finds (s : State) (skip : Nat → Bool) (d : Damage) (a : Nat) : Bool :=
  !skip a && decide ((s.cell a).damage = d)

/-- The store once a cell has been checked: a correctable one is rewritten with its value. -/
def State.checked (s : State) (skip : Nat → Bool) (a : Nat) : State :=
  if s.finds skip .oneBit a then s.writeCell a (s.cell a).value else s

theorem checked_eq_setImage (s : State) (a : Nat) : s.checked skip a = s.setImage (s.checked skip a).image := by
  unfold State.checked
  split_ifs <;> rfl

theorem cell_checked (s : State) (a b : Nat) :
    (s.checked skip a).cell b =
      if b = a ∧ s.finds skip .oneBit b = true then { value := (s.cell b).value, damage := .intact } else s.cell b := by
  unfold State.checked
  by_cases hb : b = a
  · subst hb
    cases hf : s.finds skip .oneBit b <;> simp [cell_writeCell]
  · cases hf : s.finds skip .oneBit a <;> simp [cell_writeCell, hb]

/-- One step of a check: the store, the count of corrected cells, and the uncorrectable ones. -/
theorem scanCells_cons (o : Nat) (os : List Nat) (s : State) (r : Scan) :
    ∃ r', scanCells skip p (o :: os) s r = scanCells skip p os (s.checked skip (cellAddr p o)) r' ∧
      r'.corrected = r.corrected + (if s.finds skip .oneBit (cellAddr p o) then 1 else 0) ∧
      r'.bad = r.bad ++ (if s.finds skip .twoBits (cellAddr p o) then [o] else []) := by
  rw [scanCells]
  unfold State.checked State.finds
  cases hskip : skip (cellAddr p o)
  · cases hd : (s.cell (cellAddr p o)).damage <;> simp [hd] <;> exact ⟨_, rfl, rfl, rfl⟩
  · exact ⟨r, by simp⟩

/-- A check changes the image and nothing else. -/
theorem scanCells_eq_setImage (os : List Nat) (s : State) (r : Scan) :
    (scanCells skip p os s r).1 = s.setImage (scanCells skip p os s r).1.image := by
  induction os generalizing s r with
  | nil => rfl
  | cons o os ih =>
    obtain ⟨r', hstep, -, -⟩ := scanCells_cons (skip := skip) (p := p) o os s r
    rw [hstep, ih, checked_eq_setImage]
    rfl

/-- Every cell that a check finds correctable holds its value with a fresh code afterwards, and every other cell is as it was. -/
theorem cell_scanCells (os : List Nat) (s : State) (r : Scan) (b : Nat) :
    (scanCells skip p os s r).1.cell b =
      if b ∈ os.map (cellAddr p) ∧ s.finds skip .oneBit b = true then { value := (s.cell b).value, damage := .intact }
      else s.cell b := by
  induction os generalizing s r with
  | nil => simp [scanCells]
  | cons o os ih =>
    obtain ⟨r', hstep, -, -⟩ := scanCells_cons (skip := skip) (p := p) o os s r
    have hcell := cell_checked (skip := skip) s (cellAddr p o) b
    rw [hstep, ih]
    by_cases hb : b = cellAddr p o ∧ s.finds skip .oneBit b = true
    · rw [if_pos hb] at hcell
      have hdone : (s.checked skip (cellAddr p o)).finds skip .oneBit b = false := by simp [State.finds, hcell]
      rw [if_neg (by simp [hdone]), hcell, if_pos ⟨by rw [hb.1]; exact List.mem_cons_self, hb.2⟩]
    · rw [if_neg hb] at hcell
      have hsame : (s.checked skip (cellAddr p o)).finds skip .oneBit b = s.finds skip .oneBit b := by
        simp only [State.finds, hcell]
      have hmem : (b ∈ os.map (cellAddr p) ∧ s.finds skip .oneBit b = true) ↔
          (b ∈ (o :: os).map (cellAddr p) ∧ s.finds skip .oneBit b = true) := by
        simp only [List.map_cons, List.mem_cons]
        tauto
      simp only [hsame, hcell, hmem]

/-- What a check counts: the correctable cells, and the uncorrectable ones in the order read. -/
theorem scanCells_counts {os : List Nat} (hnd : os.Nodup) (s : State) (r : Scan) :
    (scanCells skip p os s r).2.corrected =
        r.corrected + (os.filter (fun o => s.finds skip .oneBit (cellAddr p o))).length ∧
      (scanCells skip p os s r).2.bad = r.bad ++ os.filter (fun o => s.finds skip .twoBits (cellAddr p o)) := by
  induction os generalizing s r with
  | nil => simp [scanCells]
  | cons o os ih =>
    obtain ⟨r', hstep, hcorr, hbad⟩ := scanCells_cons (skip := skip) (p := p) o os s r
    obtain ⟨ho, hnd⟩ := List.nodup_cons.mp hnd
    have hsame : ∀ d, os.filter (fun o' => (s.checked skip (cellAddr p o)).finds skip d (cellAddr p o')) =
        os.filter (fun o' => s.finds skip d (cellAddr p o')) := by
      intro d
      refine List.filter_congr fun o' ho' => ?_
      have hne : cellAddr p o' ≠ cellAddr p o := by
        unfold cellAddr
        rintro h
        exact ho (by rwa [show o = o' by omega])
      simp only [State.finds, cell_checked, hne, false_and, if_false]
    obtain ⟨ih1, ih2⟩ := ih hnd (s.checked skip (cellAddr p o)) r'
    rw [hstep, ih1, ih2, hcorr, hbad, hsame, hsame, List.filter_cons, List.filter_cons]
    constructor
    · split_ifs
      · rw [List.length_cons]; omega
      · rfl
    · split_ifs <;> simp

end Scan

/-! ### The page a patrol visit takes (R39) -/

section Choice

variable {s : State} {c p : Nat}

theorem find?_range_filter {P Q : Nat → Bool} {n p : Nat} (hp : p < n) (hP : P p = true) (hQ : Q p = true)
    (hmin : ∀ q < p, P q = true → Q q = false) : ((List.range n).filter P).find? Q = some p := by
  rw [List.find?_filter, List.find?_range_eq_some]
  refine ⟨by simp [hP, hQ], List.mem_range.mpr hp, fun q hq => ?_⟩
  cases hPq : P q
  · simp
  · simp [hmin q hq hPq]

/-- The first visitable mapped page from the cursor up. -/
theorem visitChoice_ahead (hp : p < 256) (hm : s.mapped p = true) (hv : s.visitable p = true) (hc : c ≤ p)
    (hmin : ∀ q, c ≤ q → q < p → s.mapped q = true → s.visitable q = false) : s.visitChoice c = some (p, false) := by
  have hfind : (s.mappedPages.filter (fun q => decide (c ≤ q))).find? s.visitable = some p := by
    rw [State.mappedPages, List.filter_filter]
    refine find?_range_filter hp (by simp [hm, hc]) hv fun q hq hPq => ?_
    simp only [Bool.and_eq_true, decide_eq_true_eq] at hPq
    exact hmin q hPq.1 hq hPq.2
  simp only [State.visitChoice, hfind]

/-- With none there, the first from the lowest mapped page up, behind a passing of the highest. -/
theorem visitChoice_passed (hp : p < 256) (hm : s.mapped p = true) (hv : s.visitable p = true) (hc : p < c)
    (hmin : ∀ q, s.mapped q = true → c ≤ q ∨ q < p → s.visitable q = false) : s.visitChoice c = some (p, true) := by
  have hnone : (s.mappedPages.filter (fun q => decide (c ≤ q))).find? s.visitable = none := by
    simp only [List.find?_eq_none, List.mem_filter, State.mappedPages, decide_eq_true_eq, Bool.not_eq_true]
    exact fun q hq => hmin q hq.1.2 (.inl hq.2)
  have hfind : (s.mappedPages.filter (fun q => decide (q < c))).find? s.visitable = some p := by
    rw [State.mappedPages, List.filter_filter]
    refine find?_range_filter hp (by simp [hm, hc]) hv fun q hq hPq => ?_
    simp only [Bool.and_eq_true, decide_eq_true_eq] at hPq
    exact hmin q hPq.2 (.inr hq)
  simp only [State.visitChoice, hnone, hfind, Option.map_some]

/-- With none at all there is no visit. -/
theorem visitChoice_none (h : ∀ q, s.mapped q = true → s.visitable q = false) : s.visitChoice c = none := by
  have hnone : ∀ P : Nat → Bool, (s.mappedPages.filter P).find? s.visitable = none := by
    intro P
    simp only [List.find?_eq_none, List.mem_filter, State.mappedPages, Bool.not_eq_true]
    exact fun q hq => h q hq.1.2
  simp only [State.visitChoice, hnone, Option.map_none]

end Choice

end Sys2Proof.Machine
end

section
/-! LANE RESET: what it cuts, what it keeps, and its release. -/

namespace Sys2Proof.Machine

/-! ### Writes that had been made -/

section Torn

/-- Writes that had been made change the image and nothing else. -/
theorem tornWrites_eq_setImage (bs : List Bool) (ws : List (Nat × Word)) (s : State) :
    tornWrites bs ws s = s.setImage (tornWrites bs ws s).image := by
  induction bs generalizing ws s with
  | nil => rfl
  | cons b bs ih =>
    cases ws with
    | nil => rfl
    | cons w ws =>
      rw [tornWrites, ih]
      cases b <;> rfl

/-- No writes make no change. -/
theorem tornWrites_nil (bs : List Bool) (s : State) : tornWrites bs [] s = s := by
  cases bs <;> rfl

/-- Each cell holds what it held, or a value that was being written there, with a matching code. -/
theorem cell_tornWrites (bs : List Bool) (ws : List (Nat × Word)) (s : State) (b : Nat) :
    (tornWrites bs ws s).cell b = s.cell b ∨
      ∃ v, (b, v) ∈ ws ∧ (tornWrites bs ws s).cell b = { value := v, damage := .intact } := by
  induction bs generalizing ws s with
  | nil => exact .inl rfl
  | cons c bs ih =>
    cases ws with
    | nil => exact .inl rfl
    | cons w ws =>
      obtain ⟨a, x⟩ := w
      rw [tornWrites]
      rcases ih ws (if c then s.writeCell a x else s) with h | ⟨v, hv, h⟩
      · cases c
        · exact .inl h
        · rw [if_pos rfl, cell_writeCell] at h
          by_cases hb : b = a
          · rw [if_pos hb] at h
            exact .inr ⟨x, by rw [hb]; exact List.mem_cons_self, h⟩
          · rw [if_neg hb] at h
            exact .inl h
      · exact .inr ⟨v, List.mem_cons_of_mem _ hv, h⟩

/-- Where every write had been made and a cell has one value to take, it holds that value. -/
theorem cell_tornWrites_all {n : Nat} (f : Nat → Word) (l : List Nat) (hn : l.length ≤ n) (s : State) (b : Nat) :
    (tornWrites (List.replicate n true) (l.map (fun a => (a, f a))) s).cell b =
      if b ∈ l then { value := f b, damage := .intact } else s.cell b := by
  induction l generalizing n s with
  | nil => simp [tornWrites_nil]
  | cons a l ih =>
    obtain ⟨n, rfl⟩ : ∃ m, n = m + 1 := ⟨n - 1, by simp only [List.length_cons] at hn; omega⟩
    rw [List.replicate_succ, List.map_cons, tornWrites, if_pos rfl, ih (by simpa using hn), cell_writeCell]
    by_cases hb : b = a
    · simp [hb]
    · simp [hb]

end Torn

/-! ### The part as the reset finds it -/

section Cut

variable {s : State}

/-- Upsets change the image and nothing else. -/
theorem strike_eq_setImage (s : State) (us : List Upset) : s.strike us = s.setImage (s.strike us).image := by
  induction us generalizing s with
  | nil => rfl
  | cons u us ih => rw [State.strike, ih]; rfl

/-- A host read that is cut stands as the job of the host link at most. -/
theorem readBegun_eq_setLink (s : State) (x : Option (Byte × Request)) : ∃ l, s.readBegun x = s.setLink l := by
  unfold State.readBegun
  split
  · exact ⟨s.link, rfl⟩
  · split
    · exact ⟨s.link, rfl⟩
    · split_ifs
      · split
        · exact ⟨_, rfl⟩
        · exact ⟨s.link, rfl⟩
      · exact ⟨s.link, rfl⟩

/-- Together they leave a part that differs in its image and its host link at most. -/
theorem cutFound_eq (s : State) (cut : Cut) :
    ∃ l, (s.strike cut.ups).readBegun cut.read = (s.setImage (s.strike cut.ups).image).setLink l := by
  obtain ⟨l, hl⟩ := readBegun_eq_setLink (s.strike cut.ups) cut.read
  exact ⟨l, by rw [hl, ← strike_eq_setImage]⟩

/-- The cells of a page that a patrol grant has corrected, each with the value it takes. -/
theorem cell_tornWrites_visit {p o : Nat} (hc : s.patrol.cursor = some p) (hp : p < 256) (hm : s.mapped p = true)
    (hv : s.visitable p = true) (ho : o < 64) (hl : p * 64 + o ∉ s.suspects)
    (hd : (s.cell (p * 64 + o)).damage = .oneBit) :
    (tornWrites (List.replicate 64 true) s.visitRewrites s).cell (p * 64 + o) =
      { value := (s.cell (p * 64 + o)).value, damage := .intact } := by
  have hchoice := visitChoice_ahead hp hm hv (Nat.le_refl p) fun q hpq hqp => absurd hqp (Nat.not_lt.mpr hpq)
  have hmem : p * 64 + o ∈ (List.range 64).map (cellAddr p) := List.mem_map.mpr ⟨o, List.mem_range.mpr ho, rfl⟩
  have hscan : (s.visitScan p).1.cell (p * 64 + o) = { value := (s.cell (p * 64 + o)).value, damage := .intact } := by
    have hfinds : s.finds s.listed .oneBit (p * 64 + o) = true := by simp [State.finds, State.listed, hl, hd]
    exact (cell_scanCells ..).trans (if_pos ⟨hmem, hfinds⟩)
  have hlen : (((List.range 64).map (cellAddr p)).filter (fun a => decide ((s.cell a).damage = .oneBit) &&
      decide (((s.visitScan p).1.cell a).damage = .intact))).length ≤ 64 :=
    (List.length_filter_le _ _).trans (by simp)
  simp only [State.visitRewrites, hc, hchoice, State.rewrites]
  rw [cell_tornWrites_all _ _ hlen, if_pos (List.mem_filter.mpr ⟨hmem, by simp [hd, hscan]⟩), hscan]

/-- A lane reset keeps the journal but for a PENDING_BASE one (R36). -/
theorem journal_ended_eq (j : Journal) :
    j.ended =
      if j.state = .pendingBase then { state := .broken, records := [], base := none, next := j.next, start := none }
      else { j with start := none } := by
  cases h : j.state <;> simp [Journal.ended, h]

/-- With no operation in progress or suspended, a reset cuts nothing of the array. -/
theorem cutArray_idle {ctl : Controller} (h1 : ctl.op = none) (h2 : ctl.suspended = none) (cut : Cut) (x : RetArray) :
    cutArray ctl cut x = x := by
  simp [cutArray, h1, h2]

end Cut

/-- Settles O23: the reset keeps what its operand says had been written, and its release begins the start-up scan. -/
theorem laneResetKeepsImageJournalAndArray : Obligations.LaneResetKeepsImageJournalAndArray := by
  intro s cut
  refine ⟨?_, fun hphase => ?_, fun hphase => ?_, fun hphase => ?_⟩
  · intro hphase u
    have hon : ¬ (s.phase = .off ∨ s.phase = .held) := by rcases hphase with h | h <;> simp [h]
    obtain ⟨torn, htorn⟩ : ∃ t, t = if s.phase = .running then tornWrites cut.torn u.grantWrites u else s := ⟨_, rfl⟩
    have hexec : exec (.laneResetAssert cut) s = .next
        (((((s.unpowered.setLrst true).setPhase .held).setImage torn.image).setJournal s.journal.ended).setArray
          (cutArray s.ctl cut s.array)) := by
      rw [show exec (.laneResetAssert cut) s = _ from if_neg hon, htorn]
      by_cases hrun : s.phase = .running <;> simp only [u, hrun, if_true, if_false]
    have hupower : u.powerOns = s.powerOns := by
      simp only [u]
      split_ifs
      · obtain ⟨l, hl⟩ := cutFound_eq s cut
        rw [hl]; rfl
      · rfl
    have htcell : ∀ b, (s.setImage torn.image).cell b = torn.cell b := by
      intro b
      have hpower : torn.powerOns = s.powerOns := by
        rw [htorn]
        split_ifs
        · rw [tornWrites_eq_setImage]; exact hupower
        · rfl
      simp only [State.cell, State.setImage_image, State.setImage_powerOns, hpower]
    refine ⟨torn.image, fun b => ?_, fun h => ?_, fun p o hrun hpick hc hp hm hv ht ho hl hd => ?_,
      fun h1 h2 => cutArray_idle h1 h2 cut _, ?_⟩
    · rw [htcell, htorn]
      split_ifs with hrun
      · exact cell_tornWrites ..
      · exact .inl (by simp only [u, hrun, if_false])
    · rw [htorn]
      split_ifs with hrun
      · rcases h with h | h
        · rw [h, tornWrites_nil]
        · rw [h] at hrun; exact absurd hrun (by decide)
      · simp only [u, hrun, if_false]
    · obtain ⟨l, hu⟩ := cutFound_eq s cut
      have hu' : u = (s.setImage (s.strike cut.ups).image).setLink l := by simp only [u, hrun, if_true, hu]
      have hwrites : u.grantWrites = u.visitRewrites := by simp only [State.grantWrites, hpick]
      have hvalue : (u.cell (p * 64 + o)).value = (s.cell (p * 64 + o)).value := by
        rw [← value_strike s cut.ups, hu', strike_eq_setImage]
        rfl
      rw [htcell, htorn, if_pos hrun, hwrites, ht, ← hvalue]
      rw [hu'] at hd ⊢
      exact cell_tornWrites_visit hc hp hm hv ho hl hd
    · rw [hexec, journal_ended_eq]
      rfl
  · exact if_pos hphase
  · exact if_pos hphase
  · exact if_neg hphase

end Sys2Proof.Machine
end

section
/-! A patrol visit: what it finds is handed on in one go, and its timer starts at the pace that follows. -/

namespace Sys2Proof.Machine

/-! ### Several raises in one event (R46, R48, R142) -/

section Raises

variable {s : State}

/-- The state after raises of the kinds in the set `kinds`, of total weight `w`, that cross no threshold. -/
def State.raisedAll (s : State) (kinds : BitVec 21) (w : Nat) : State :=
  { s with
    faults := { s.faults with
      current := s.faults.current ||| kinds, accrued := s.faults.accrued ||| kinds, any := s.faults.any || decide (w ≠ 0) }
    pressure := { s.pressure with p := s.pressure.p + w }
    patrol := { s.patrol with pace := if w = 0 then s.patrol.pace else paceAfter (s.pressure.p + w) s.patrol.pace } }

/-- No raise changes nothing. -/
theorem raisedAll_zero (s : State) : s.raisedAll 0 0 = s := by
  simp [State.raisedAll]

/-- From pace level 0, the level below 512 follows the last P alone (R48). -/
theorem paceAfter_paceAfter {q r : Nat} (hqr : q ≤ r) (hr : r < 512) : paceAfter r (paceAfter q 0) = paceAfter r 0 := by
  have hzero : ∀ x < 512, paceAfter x 0 = if 256 ≤ x then 1 else 0 := by
    intro x hx
    unfold paceAfter
    repeat' split
    all_goals omega
  have hone : 256 ≤ r → paceAfter r 1 = 1 := by
    intro h
    unfold paceAfter
    repeat' split
    all_goals omega
  rw [hzero q (by omega), hzero r hr]
  by_cases hq : 256 ≤ q
  · rw [if_pos hq, if_pos (by omega)]
    exact hone (by omega)
  · rw [if_neg hq]
    exact hzero r hr

/-- One raise more. -/
theorem raise_raisedAll {k : FaultKind} {kinds : BitVec 21} {w v : Nat} (hv : v ≠ 0) (hpace : s.patrol.pace = 0)
    (hlow : s.pressure.p + (w + v) < 512) : (s.raisedAll kinds w).raise k v = s.raisedAll (kinds ||| k.bit) (w + v) := by
  have hp : (s.raisedAll kinds w).pressure.p = s.pressure.p + w := rfl
  rw [raise_low (by rw [hp]; omega)]
  have hpace' : paceAfter (s.pressure.p + (w + v)) (if w = 0 then 0 else paceAfter (s.pressure.p + w) 0) =
      paceAfter (s.pressure.p + (w + v)) 0 := by
    split_ifs
    · rfl
    · exact paceAfter_paceAfter (by omega) hlow
  have hne : w + v ≠ 0 := by omega
  simp only [State.raised, State.raisedAll, hv, hne, hpace, hpace', if_false, BitVec.or_assoc, Nat.add_assoc, ne_eq,
    not_false_eq_true, decide_true, Bool.or_true]

/-- The same raise `n` times more. -/
theorem raiseTimes_raisedAll {k : FaultKind} {kinds : BitVec 21} {w v n : Nat} (hv : v ≠ 0) (hpace : s.patrol.pace = 0)
    (hlow : s.pressure.p + (w + v * n) < 512) :
    (s.raisedAll kinds w).raiseTimes k v n = s.raisedAll (kinds ||| if n = 0 then 0 else k.bit) (w + v * n) := by
  induction n generalizing kinds w with
  | zero => simp [State.raiseTimes]
  | succ n ih =>
    rw [Nat.mul_succ] at hlow ⊢
    rw [State.raiseTimes, raise_raisedAll hv hpace (by omega), ih (by omega)]
    have hkinds : (kinds ||| k.bit ||| if n = 0 then 0 else k.bit) = kinds ||| if n + 1 = 0 then 0 else k.bit := by
      split_ifs <;> simp_all [BitVec.or_assoc]
    rw [hkinds, Nat.add_assoc, Nat.add_comm v]

/-- The faults of a grant that checked a page (R42): CORRECTED once with its weight for each cell, UNCORRECTABLE for each cell,
SUSPECT_OVERFLOW once. -/
theorem handOn_raises {n m : Nat} {full : Bool}
    (hlow : 4 * n + 64 * m + (if full = true then 32 else 0) ≠ 0 → s.patrol.pace = 0 ∧
      s.pressure.p + (4 * n + 64 * m + if full = true then 32 else 0) < 512) :
    (let t := if n = 0 then s else s.raise .corrected (FaultKind.corrected.weight * n)
     let t := t.raiseTimes .uncorrectable FaultKind.uncorrectable.weight m
     if full = true then t.raise .suspectOverflow FaultKind.suspectOverflow.weight else t) =
      s.raisedAll ((if n = 0 then 0 else FaultKind.corrected.bit) ||| (if m = 0 then 0 else FaultKind.uncorrectable.bit) |||
          (if full = true then FaultKind.suspectOverflow.bit else 0))
        (4 * n + 64 * m + if full = true then 32 else 0) := by
  have hstart := raisedAll_zero s
  by_cases hw : 4 * n + 64 * m + (if full = true then 32 else 0) = 0
  · obtain ⟨rfl, rfl, rfl⟩ : n = 0 ∧ m = 0 ∧ full = false := by
      cases full
      · rw [if_neg (by decide)] at hw
        exact ⟨by omega, by omega, rfl⟩
      · rw [if_pos rfl] at hw
        omega
    exact hstart.symm
  · obtain ⟨hpace, hlow⟩ := hlow hw
    have h1 : (if n = 0 then s else s.raise .corrected (FaultKind.corrected.weight * n)) =
        s.raisedAll (if n = 0 then 0 else FaultKind.corrected.bit) (4 * n) := by
      split_ifs with hn
      · rw [hn]; exact hstart.symm
      · have := raise_raisedAll (s := s) (k := .corrected) (kinds := 0) (w := 0) (v := 4 * n) (by omega) hpace (by omega)
        rwa [hstart, show (0 : BitVec 21) ||| FaultKind.corrected.bit = _ from BitVec.zero_or, Nat.zero_add] at this
    have h2 := raiseTimes_raisedAll (s := s) (k := .uncorrectable) (kinds := if n = 0 then 0 else FaultKind.corrected.bit)
      (w := 4 * n) (v := 64) (n := m) (by decide) hpace (by omega)
    simp only [h1]
    rw [show FaultKind.uncorrectable.weight = 64 from rfl, h2]
    cases full
    · simp
    · exact raise_raisedAll (by decide) hpace hlow

end Raises

/-! ### The hand-on of a grant that checked a page (R42, R44) -/

section HandOn

variable {s : State} {p : Nat}

/-- In a suspect-all page no cell is offered. -/
theorem offerSuspects_of_all (hall : (s.page p).suspectAll = true) (bad : List Nat) :
    offerSuspects p bad s = (s, false) := by
  induction bad with
  | nil => rfl
  | cons o os ih =>
    have ho : offerSuspect p o s = (s, false) := by simp [offerSuspect, hall]
    simp only [offerSuspects, ho, ih, Bool.or_self]

/-- New cells of a page go to the suspect list in order as far as it has room; the first beyond it sets the suspect-all flag. -/
theorem offerSuspects_eq {bad : List Nat} (hnd : bad.Nodup) (hall : (s.page p).suspectAll = false)
    (hl : ∀ o ∈ bad, p * 64 + o ∉ s.suspects) :
    offerSuspects p bad s =
      let room := 32 - s.suspects.length
      let t := s.setSuspects (s.suspects ++ (bad.take room).map (fun o => p * 64 + o))
      (if room < bad.length then t.mapPage p (fun r => { r with suspectAll := true }) else t,
        decide (room < bad.length)) := by
  induction bad generalizing s with
  | nil => simp [offerSuspects]; rfl
  | cons o os ih =>
    obtain ⟨ho, hnd⟩ := List.nodup_cons.mp hnd
    by_cases hroom : s.suspects.length < 32
    · have hfirst := offerSuspect_room hall (hl o List.mem_cons_self) hroom
      have hl' : ∀ o' ∈ os, p * 64 + o' ∉ (s.setSuspects (s.suspects ++ [p * 64 + o])).suspects := by
        intro o' ho' hmem
        rcases List.mem_append.mp hmem with h | h
        · exact hl o' (List.mem_cons_of_mem o ho') h
        · rw [List.mem_singleton] at h
          exact ho (by rwa [show o = o' by omega])
      have hrest := ih (s := s.setSuspects (s.suspects ++ [p * 64 + o])) hnd hall hl'
      have hlen : 32 - s.suspects.length = 32 - (s.suspects.length + 1) + 1 := by omega
      simp only [offerSuspects, hfirst, hrest, State.setSuspects_suspects, List.length_append, hlen,
        List.take_succ_cons, List.map_cons, List.length_cons, Nat.add_lt_add_iff_right, Bool.false_or, List.append_assoc,
        List.singleton_append]
      rfl
    · have hfirst := offerSuspect_full hall (hl o List.mem_cons_self) (Nat.not_lt.mp hroom)
      have hflag : ((s.mapPage p (fun r => { r with suspectAll := true })).page p).suspectAll = true := by
        have := onlyPage_mapPage (s := s) (p := p) (f := fun r => { r with suspectAll := true }) (by simp [PageRec.fresh]) p
        rw [if_pos rfl] at this
        exact congrArg PageRec.suspectAll this
      have hnone : 32 - s.suspects.length = 0 := by omega
      simp only [offerSuspects, hfirst, offerSuspects_of_all hflag, hnone, List.take_zero, List.map_nil, List.append_nil,
        List.length_cons, Nat.zero_lt_succ, if_true, decide_true, Bool.or_false]
      rfl

/-- The page table once new cells of a page have been offered and the page is SUSPECT. -/
theorem offered_makeSuspect {bad : List Nat} (hnd : bad.Nodup) (hall : (s.page p).suspectAll = false)
    (hl : ∀ o ∈ bad, p * 64 + o ∉ s.suspects) (hrole : s.xfer.role = .none) (hu : (s.page p).state ≠ .unset)
    (hr : (s.page p).state ≠ .restoring) :
    ∃ g, s.onlyPage g p (fun x => { x with
        state := .suspect, suspectAll := x.suspectAll || decide (32 - s.suspects.length < bad.length) }) ∧
      (offerSuspects p bad s).1.makeSuspect p =
        (s.setSuspects (s.suspects ++ (bad.take (32 - s.suspects.length)).map (fun o => p * 64 + o))).setPages g := by
  have hoffer := offerSuspects_eq hnd hall hl
  dsimp only at hoffer
  generalize hroom : 32 - s.suspects.length = room at hoffer ⊢
  generalize hsus : s.suspects ++ (bad.take room).map (fun o => p * 64 + o) = sus at hoffer ⊢
  obtain ⟨f, hx, hf⟩ : ∃ f, (offerSuspects p bad s).1 = (s.setSuspects sus).setPages f ∧
      s.onlyPage f p (fun x => { x with suspectAll := x.suspectAll || decide (room < bad.length) }) := by
    rw [hoffer]
    dsimp only
    split_ifs with hfull
    · refine ⟨_, rfl, ?_⟩
      simp only [hfull, decide_true, Bool.or_true]
      exact onlyPage_mapPage (s := s.setSuspects sus) (p := p) (f := fun r => { r with suspectAll := true }) (by simp [PageRec.fresh])
    · refine ⟨s.pages, rfl, fun q => ?_⟩
      simp only [hfull, decide_false, Bool.or_false, ite_self]
      rfl
  have hp : ((s.setSuspects sus).setPages f).page p =
      { s.page p with suspectAll := (s.page p).suspectAll || decide (room < bad.length) } := (hf p).trans (if_pos rfl)
  obtain ⟨g, hg, hpage⟩ := makeSuspect_eq (s := (s.setSuspects sus).setPages f) (p := p) hrole (by rw [hp]; exact hu)
    (by rw [hp]; exact hr)
  refine ⟨g, fun q => ?_, by rw [hx, hg]; rfl⟩
  have hq := hpage q
  rw [show ((s.setSuspects sus).setPages f).page q = _ from hf q] at hq
  split_ifs at hq ⊢ <;> exact hq

/-- What a grant that checked page `p` and found the new cells `bad` hands on, but for the faults it raises. -/
def State.handedOn (s : State) (g : List (Nat × PageRec)) (p : Nat) (bad : List Nat) : State :=
  { s with
    pages := g
    suspects := s.suspects ++ (bad.take (32 - s.suspects.length)).map (fun o => p * 64 + o)
    rest :=
      if s.isAutoRestore p = true ∧ p ∉ s.rest.list then { s.rest with list := s.rest.list ++ [p] } else s.rest }

/-- The kinds that such a grant raises. -/
def findingKinds (n m : Nat) (full : Bool) : BitVec 21 :=
  (if n = 0 then 0 else FaultKind.corrected.bit) ||| (if m = 0 then 0 else FaultKind.uncorrectable.bit) |||
    (if full = true then FaultKind.suspectOverflow.bit else 0)

/-- Their total weight. -/
def findingWeight (n m : Nat) (full : Bool) : Nat := 4 * n + 64 * m + if full = true then 32 else 0

/-- A grant that found nothing new hands on its corrections. -/
theorem handOn_clean {r : Scan} (hbad : r.bad = []) (hlow : findingWeight r.corrected 0 false ≠ 0 →
      s.patrol.pace = 0 ∧ s.pressure.p + findingWeight r.corrected 0 false < 512) :
    s.handOn p r = s.raisedAll (findingKinds r.corrected 0 false) (findingWeight r.corrected 0 false) := by
  rw [show s.raisedAll (findingKinds r.corrected 0 false) (findingWeight r.corrected 0 false) = _ from
    (handOn_raises hlow).symm]
  simp only [State.handOn, hbad, offerSuspects, ne_eq, not_true, false_and, if_false, if_true, List.length_nil]

/-- A grant that found new cells. -/
theorem handOn_found {r : Scan} {full : Bool} (hfull : full = decide (32 - s.suspects.length < r.bad.length))
    (hne : r.bad ≠ []) (hnd : r.bad.Nodup) (hall : (s.page p).suspectAll = false)
    (hl : ∀ o ∈ r.bad, p * 64 + o ∉ s.suspects) (hrole : s.xfer.role = .none) (hu : (s.page p).state ≠ .unset)
    (hr : (s.page p).state ≠ .restoring) (hprim : s.faults.primary = none)
    (hrest : s.isAutoRestore p = true → s.rest.list.length < 64)
    (hlow : findingWeight r.corrected r.bad.length full ≠ 0 →
      s.patrol.pace = 0 ∧ s.pressure.p + findingWeight r.corrected r.bad.length full < 512) :
    ∃ g, s.onlyPage g p (fun x => { x with state := .suspect, suspectAll := x.suspectAll || full }) ∧
      s.handOn p r =
        ((s.handedOn g p r.bad).raisedAll (findingKinds r.corrected r.bad.length full)
          (findingWeight r.corrected r.bad.length full)).framed
          (.patrol (if full = true then .suspectOverflow else .uncorrectable) p r.corrected r.bad s.patrol.round) := by
  obtain ⟨g, hg, hoff⟩ := offered_makeSuspect hnd hall hl hrole hu hr
  have hflag : (offerSuspects p r.bad s).2 = full := by
    rw [offerSuspects_eq hnd hall hl, hfull]
  rw [← hfull] at hg
  refine ⟨g, hg, ?_⟩
  have hoffer : (if r.bad ≠ [] ∧ ((offerSuspects p r.bad s).1.makeSuspect p).isAutoRestore p = true then
      ((offerSuspects p r.bad s).1.makeSuspect p).offerRestore p else (offerSuspects p r.bad s).1.makeSuspect p) =
      s.handedOn g p r.bad := by
    rw [hoff]
    by_cases hauto : s.isAutoRestore p = true
    · rw [if_pos ⟨hne, hauto⟩]
      refine (offerRestore_room (p := p) (s := (s.setSuspects (s.suspects ++
        (r.bad.take (32 - s.suspects.length)).map (fun o => p * 64 + o))).setPages g) (.inr (hrest hauto))).trans ?_
      have hlist : ({ s.rest with list := if p ∈ s.rest.list then s.rest.list else s.rest.list ++ [p] } : Restore) =
          if s.isAutoRestore p = true ∧ p ∉ s.rest.list then { s.rest with list := s.rest.list ++ [p] } else s.rest := by
        by_cases hmem : p ∈ s.rest.list <;> simp [hauto, hmem]
      rw [State.handedOn, ← hlist]
      rfl
    · rw [if_neg (fun h => hauto h.2), State.handedOn, if_neg (fun h => hauto h.1)]
      rfl
  have hraises := handOn_raises (s := s.handedOn g p r.bad) (n := r.corrected) (m := r.bad.length) (full := full) hlow
  have hhand : s.handOn p r = ((s.handedOn g p r.bad).raisedAll (findingKinds r.corrected r.bad.length full)
      (findingWeight r.corrected r.bad.length full)).placeFrame
      (.patrol (if full = true then .suspectOverflow else .uncorrectable) p r.corrected r.bad s.patrol.round) := by
    dsimp only at hraises
    simp only [State.handOn, hflag, if_neg hne, hoffer, hraises]
    rfl
  rw [hhand]
  exact placeFrame_empty _ hprim

end HandOn

/-! ### The visit (R38, R39, R41, R42) -/

section Visit

variable {s u : State}

theorem State.Keeps.endsAs (h : u.Keeps s) : u.EndsAs s := ⟨h.phase, h.link, h.notes, h.pins, h.permitCond⟩

/-- A part whose pages and restore list have not changed either stands still as before, a checkpoint in flight or not. -/
theorem State.Keeps.still_of_pages (h : u.Keeps s) (hstill : s.still) (hpages : u.pages = s.pages)
    (hrest : u.rest = s.rest) : u.still := by
  have ⟨hcs, hrs, hfs, hds, hch, hrun, hes⟩ := hstill
  have hpage : u.page = s.page := by
    funext p
    simp only [State.page, hpages]
  have hunrest : u.unrestorable = s.unrestorable := by
    funext p
    simp only [State.unrestorable, hpage, hrest]
  have huncap : u.uncapturedPages = s.uncapturedPages := by
    simp only [State.uncapturedPages, State.touchedPages, hpages, hpage]
  have hhigh : u.highMark = s.highMark := by unfold State.highMark State.param; rw [h.comm]
  have hlow : u.lowMark = s.lowMark := by unfold State.lowMark State.param; rw [h.comm]
  refine ⟨?_, by rw [hrest]; exact hrs, ?_, ?_, ?_, ?_, ?_⟩
  · rw [← hcs]; simp only [State.closeStands, h.lane, h.queue, h.xfer]
  · rw [← hfs]; simp only [State.flightStands, h.ckpt, huncap, hunrest, hpage]
  · rw [← hds]; simp only [State.donorStands, State.closingPassRuns, h.lane, h.xfer]
  · rw [← hch]; simp only [State.checkStands, h.xfer]
  · rw [← hrun]; simp only [State.runStands, hhigh, hlow, h.queue]
  · rw [← hes]; simp only [State.eraseStands, h.ckpt]

/-- The end of a visit: the cursor moves, maybe round, and the timer starts at the pace that stands. -/
def State.visitOver (s : State) (p : Nat) : State :=
  let next := s.mappedPages.find? (fun q => decide (p < q))
  s.setPatrol { s.patrol with
    cursor := if next = none then s.mappedPages.head? else next
    round := if next = none then s.patrol.round + 1 else s.patrol.round
    timer := some (visitInterval s.patrolBase s.patrol.pace), request := false }

theorem visitOver_eq (s : State) (p : Nat) : (s.advanceCursor p).startVisitTimer = s.visitOver p := by
  unfold State.advanceCursor State.visitOver
  cases hnext : s.mappedPages.find? (fun q => decide (p < q)) with
  | none => rfl
  | some q => rfl

/-- What a visit of page `p` finds with the given damage: the offsets, in ascending order, of cells that are not listed. -/
def State.offsetsFound (s : State) (p : Nat) (d : Damage) : List Nat :=
  (List.range 64).filter (fun o => decide (p * 64 + o ∉ s.suspects) && decide ((s.cell (p * 64 + o)).damage = d))

/-- The new cells among them. -/
def State.newFound (s : State) (p : Nat) : List Nat :=
  if (s.page p).suspectAll = true then [] else s.offsetsFound p .twoBits

/-- A visit's check rewrites the correctable cells, counts them, and gives the new ones. -/
theorem visitScan_eq (s : State) (p : Nat) :
    ∃ m r, s.visitScan p = (s.setImage m, r) ∧ r.corrected = (s.offsetsFound p .oneBit).length ∧ r.bad = s.newFound p ∧
      ∀ a, (s.setImage m).cell a =
        if a / 64 = p ∧ a % 64 ∈ s.offsetsFound p .oneBit then { value := (s.cell a).value, damage := .intact }
        else s.cell a := by
  have hfinds : ∀ d, (fun o => s.finds s.listed d (cellAddr p o)) = fun o =>
      decide (p * 64 + o ∉ s.suspects) && decide ((s.cell (p * 64 + o)).damage = d) := by
    intro d
    funext o
    change (!s.suspects.contains (p * 64 + o) && decide ((s.cell (p * 64 + o)).damage = d)) = _
    rw [Bool.eq_iff_iff]
    simp
  obtain ⟨hcorr, hbad⟩ := scanCells_counts (skip := s.listed) (p := p) List.nodup_range s Scan.empty
  rw [hfinds] at hcorr hbad
  have himage := scanCells_eq_setImage (skip := s.listed) (p := p) (List.range 64) s Scan.empty
  refine ⟨(scanPage s.listed p s).1.image, (s.visitScan p).2, ?_, ?_, ?_, fun a => ?_⟩
  · exact Prod.ext himage rfl
  · simp only [State.visitScan]
    split_ifs <;> exact hcorr.trans (Nat.zero_add _)
  · simp only [State.visitScan, State.newFound]
    split_ifs
    · rfl
    · exact hbad
  · have hiff : (a ∈ (List.range 64).map (cellAddr p) ∧ s.finds s.listed .oneBit a = true) ↔
        (a / 64 = p ∧ a % 64 ∈ s.offsetsFound p .oneBit) := by
      have hcell : cellAddr (a / 64) (a % 64) = a := cellAddr_div_mod a
      constructor
      · rintro ⟨hmem, hf⟩
        obtain ⟨o, ho, rfl⟩ := List.mem_map.mp hmem
        have ho' : o < 64 := List.mem_range.mp ho
        have hdiv : cellAddr p o / 64 = p ∧ cellAddr p o % 64 = o := by unfold cellAddr; omega
        rw [hdiv.1, hdiv.2]
        exact ⟨rfl, List.mem_filter.mpr ⟨ho, (congrFun (hfinds .oneBit) o).symm.trans hf⟩⟩
      · rintro ⟨rfl, hmem⟩
        obtain ⟨ho, hf⟩ := List.mem_filter.mp hmem
        have hf' := (congrFun (hfinds .oneBit) (a % 64)).trans hf
        rw [hcell] at hf'
        exact ⟨List.mem_map.mpr ⟨a % 64, ho, hcell⟩, hf'⟩
    refine (congrArg (fun t : State => t.cell a) himage.symm).trans ((cell_scanCells ..).trans ?_)
    simp only [hiff]

/-- The part with the patrol's round at `round`. -/
def State.inRound (s : State) (round : Half) : State := s.setPatrol { s.patrol with round := round }

theorem countRound_eq (s : State) (passed : Bool) :
    s.countRound passed = s.inRound (if passed = true then s.patrol.round + 1 else s.patrol.round) := by
  cases passed <;> rfl

/-- What a visit of page `p` in the given round leaves, before the lines follow: `n` cells corrected in the image `m`, the new
cells `bad` marked in the page table `g`. -/
def State.visited (s : State) (m : List (Nat × Option StoredCell)) (g : List (Nat × PageRec)) (p : Nat) (round : Half) (n : Nat)
    (bad : List Nat) : State :=
  let room := 32 - s.suspects.length
  let full := decide (room < bad.length)
  let w := findingWeight n bad.length full
  let kinds := findingKinds n bad.length full
  let pace := if w = 0 then s.patrol.pace else paceAfter (s.pressure.p + w) s.patrol.pace
  let next := s.mappedPages.find? (fun q => decide (p < q))
  { s with
    image := m, pages := g
    suspects := s.suspects ++ (bad.take room).map (fun o => p * 64 + o)
    rest :=
      if bad ≠ [] ∧ s.isAutoRestore p = true ∧ p ∉ s.rest.list then { s.rest with list := s.rest.list ++ [p] }
      else s.rest
    patrol := { s.patrol with
      cursor := if next = none then s.mappedPages.head? else next
      round := if next = none then round + 1 else round
      pace := pace, timer := some (visitInterval s.patrolBase pace), request := false }
    pressure := { s.pressure with p := s.pressure.p + w }
    faults := { s.faults with
      current := s.faults.current ||| kinds, accrued := s.faults.accrued ||| kinds
      any := s.faults.any || decide (w ≠ 0)
      primary :=
        if bad = [] then s.faults.primary
        else some (.patrol (if full = true then .suspectOverflow else .uncorrectable) p n bad round) } }

theorem visited_keeps (s : State) (m : List (Nat × Option StoredCell)) (g : List (Nat × PageRec)) (p : Nat) (round : Half) (n : Nat)
    (bad : List Nat) : (s.visited m g p round n bad).Keeps s := ⟨rfl, rfl, rfl, rfl, rfl, rfl, rfl, rfl, rfl⟩

/-- Without new cells. -/
theorem visited_clean (s : State) (m : List (Nat × Option StoredCell)) (p : Nat) (round : Half) (n : Nat) :
    ((((s.inRound round).setImage m).raisedAll (findingKinds n 0 false) (findingWeight n 0 false)).visitOver p) =
      s.visited m s.pages p round n [] := by
  simp only [State.visited, List.length_nil, Nat.not_lt_zero, decide_false, List.take_nil, List.map_nil, List.append_nil,
    ne_eq, not_true, false_and, if_false, if_true]
  rfl

/-- With new cells. -/
theorem visited_found (s : State) (m : List (Nat × Option StoredCell)) (g : List (Nat × PageRec)) (p : Nat) (round : Half) (n : Nat)
    {bad : List Nat} {full : Bool} (hfull : full = decide (32 - s.suspects.length < bad.length)) (hne : bad ≠ []) :
    ((((((s.inRound round).setImage m).handedOn g p bad).raisedAll (findingKinds n bad.length full)
      (findingWeight n bad.length full)).framed
        (.patrol (if full = true then .suspectOverflow else .uncorrectable) p n bad round)).visitOver p) =
      s.visited m g p round n bad := by
  subst hfull
  simp only [State.visited, hne, ne_eq, not_false_eq_true, true_and, if_false]
  rfl

/-- The grant of a visit. -/
theorem visitGrant_eq {c p : Nat} {round : Half} {passed : Bool} (hstill : s.still) (hcur : s.patrol.cursor = some c)
    (hchoice : s.visitChoice c = some (p, passed)) (hvis : (s.page p).state ≠ .unset ∧ (s.page p).state ≠ .restoring)
    (hround : round = if passed = true then s.patrol.round + 1 else s.patrol.round)
    {n : Nat} (hn : n = (s.offsetsFound p .oneBit).length) {bad : List Nat} (hbad : bad = s.newFound p)
    {full : Bool} (hfull : full = decide (32 - s.suspects.length < bad.length))
    (hlow : findingWeight n bad.length full ≠ 0 → s.patrol.pace = 0 ∧
      s.pressure.p + findingWeight n bad.length full < 512)
    (hfree : bad ≠ [] → s.inFlight = false ∧ s.xfer.role = .none ∧ s.faults.primary = none ∧
      (s.isAutoRestore p = true → s.rest.op ≠ .none ∧ s.rest.list.length < 64)) :
    ∃ m g,
      (∀ a, (s.setImage m).cell a =
        if a / 64 = p ∧ a % 64 ∈ s.offsetsFound p .oneBit then { value := (s.cell a).value, damage := .intact }
        else s.cell a) ∧
      (∀ q, (s.setPages g).page q =
        if q = p ∧ bad ≠ [] then { s.page q with state := .suspect, suspectAll := (s.page q).suspectAll || full }
        else s.page q) ∧
      (s.visited m g p round n bad).still ∧ s.visitGrant [] = s.visited m g p round n bad := by
  obtain ⟨m, r, hscan, hcorr, hrbad, hcells⟩ := visitScan_eq (s.inRound round) p
  have hrn : r.corrected = n := hcorr.trans hn.symm
  have hrb : r.bad = bad := hrbad.trans hbad.symm
  have hgrant : s.visitGrant [] = (((s.inRound round).setImage m).handOn p r).visitOver p := by
    rw [← visitOver_eq]
    simp only [State.visitGrant, hcur, hchoice, countRound_eq, ← hround, State.strike, hscan]
  by_cases hne : bad = []
  · have hfull' : full = false := by rw [hfull, hne]; simp
    rw [hne, hfull'] at hlow
    refine ⟨m, s.pages, hcells, fun q => ?_, (visited_keeps ..).still_of_pages hstill rfl ?_, ?_⟩
    · rw [if_neg (fun h => h.2 hne)]; rfl
    · exact if_neg (fun h => h.1 hne)
    · rw [hgrant, handOn_clean (hrb.trans hne) (by rw [hrn]; exact hlow), hrn, visited_clean, hne]
  · obtain ⟨hflight, hrole, hprim, hauto⟩ := hfree hne
    have hnew : (s.page p).suspectAll = false ∧ bad = s.offsetsFound p .twoBits := by
      rw [State.newFound] at hbad
      split_ifs at hbad with hall
      · exact absurd hbad hne
      · exact ⟨Bool.not_eq_true _ ▸ hall, hbad⟩
    have hunlisted : ∀ o ∈ bad, p * 64 + o ∉ s.suspects := by
      intro o ho
      rw [hnew.2] at ho
      have := (List.mem_filter.mp ho).2
      simp only [Bool.and_eq_true, decide_eq_true_eq] at this
      exact this.1
    have hnodup : bad.Nodup := by rw [hnew.2]; exact List.nodup_range.filter _
    obtain ⟨g, hg, hhand⟩ := handOn_found (s := (s.inRound round).setImage m) (p := p) (r := r) (full := full)
      (by rw [hrb]; exact hfull) (by rw [hrb]; exact hne) (by rw [hrb]; exact hnodup) hnew.1 (by rw [hrb]; exact hunlisted)
      hrole hvis.1 hvis.2 hprim (fun h => (hauto h).2) (by rw [hrn, hrb]; exact hlow)
    refine ⟨m, g, hcells, fun q => ?_, (visited_keeps ..).still hstill hflight ?_, ?_⟩
    · rw [show (s.setPages g).page q = _ from hg q]
      simp only [hne, ne_eq, not_false_eq_true, and_true]
      rfl
    · by_cases hr : s.isAutoRestore p = true ∧ p ∉ s.rest.list
      · left
        rw [show (s.visited m g p round n bad).rest = _ from if_pos ⟨hne, hr⟩]
        exact (hauto hr.1).1
      · rw [show (s.visited m g p round n bad).rest = s.rest from if_neg (fun h => hr h.2)]
        exact hstill.2.1
    · rw [hgrant, hhand, hrn, hrb]
      exact visited_found s m g p round n hfull hne

/-- A visit's event ends with ALERT following. -/
theorem execPatrolVisit_of_still {v : State} (hready : s.ready) (hpick : s.pick = some .patrol)
    (hgrant : s.countNonHost.visitGrant [] = v) (hkeep : v.Keeps s) (hstill : v.still) :
    exec (.patrolVisit []) s = .next v.withAlert := by
  have ⟨_, hout, hreads⟩ := hready
  have he := hkeep.endsAs
  have hev : s.event (fun t => t.countNonHost.visitGrant []) = v.closeEvent := by
    rw [← hgrant] at hstill he ⊢
    exact event_of_settled (f := fun t => t.countNonHost.visitGrant []) (settle_of_still hstill) (he.readsDone hreads)
  rw [show exec (.patrolVisit []) s = _ from if_pos hpick, hev, closeEvent_of_quiet (he.quiet hout.2),
    he.drivePins_eq hout.1]

theorem visitable_eq_false_iff (p : Nat) : s.visitable p = false ↔
    ¬ ((s.page p).state = .sound ∨ (s.page p).state = .suspect ∨ (s.page p).state = .stale) := by
  simp [State.visitable]
  tauto

/-- The page choice of a visit, in the words of R39. -/
theorem visitChoice_eq {c p : Nat} {passed : Bool} (hm : s.mapped p = true) (hp : p < 256) (hv : s.visitable p = true)
    (hahead : passed = false → c ≤ p ∧ ∀ q, c ≤ q → q < p → s.mapped q = true → s.visitable q = false)
    (hpassed : passed = true → p < c ∧ ∀ q, s.mapped q = true → c ≤ q ∨ q < p → s.visitable q = false) :
    s.visitChoice c = some (p, passed) := by
  cases passed
  · obtain ⟨hc, hmin⟩ := hahead rfl
    exact visitChoice_ahead hp hm hv hc hmin
  · obtain ⟨hc, hmin⟩ := hpassed rfl
    exact visitChoice_passed hp hm hv hc hmin

end Visit

/-- Settles O32: the page is the one that the search of R39 takes, and its visit hands on what `visitScan_eq` finds. -/
theorem patrolVisitsThePageAtItsCursor : Obligations.PatrolVisitsThePageAtItsCursor := by
  intro s hstill hready hpick interval visits timed
  have ⟨_, ⟨⟨_, halert, _⟩, _⟩, _⟩ := hready
  have hidle : s.countNonHost.visitGrant [] = timed → exec (.patrolVisit []) s = .next timed := by
    intro h
    have htimed : timed.withAlert = timed := withAlert_of_lines halert
    rw [execPatrolVisit_of_still hready hpick h ⟨rfl, rfl, rfl, rfl, rfl, rfl, rfl, rfl, rfl⟩ hstill, htimed]
  refine ⟨fun hc => hidle ?_, fun hno => hidle ?_, ?_⟩
  · rw [State.visitGrant, show s.countNonHost.patrol.cursor = none from hc]
    rfl
  · rw [State.visitGrant]
    cases hc : s.countNonHost.patrol.cursor with
    | none => rfl
    | some c =>
      simp only [visitChoice_none (s := s.countNonHost) (c := c)
        fun q hq => (visitable_eq_false_iff (s := s.countNonHost) q).mpr (hno q hq)]
      rfl
  · intro c p passed hcur hm hp hv hahead hpassed found fixed bad room full round w kinds pace next hlow hfree
    have hvis : s.countNonHost.visitable p = true := by
      by_contra h
      exact (visitable_eq_false_iff p).mp (Bool.not_eq_true _ ▸ h) hv
    have hchoice := visitChoice_eq (s := s.countNonHost) (c := c) (passed := passed) hm hp hvis
      (fun h => ⟨(hahead h).1, fun q h1 h2 h3 => (visitable_eq_false_iff q).mpr ((hahead h).2 q h1 h2 h3)⟩)
      (fun h => ⟨(hpassed h).1, fun q h1 h2 => (visitable_eq_false_iff q).mpr ((hpassed h).2 q h1 h2)⟩)
    have hstate : (s.page p).state ≠ .unset ∧ (s.page p).state ≠ .restoring := by
      rcases hv with h | h | h <;> rw [h] <;> decide
    obtain ⟨m, g, hcells, hpages, hstill', hgrant⟩ := visitGrant_eq (s := s.countNonHost) (n := fixed.length) (bad := bad)
      (full := full) (round := round) hstill hcur hchoice hstate rfl rfl rfl rfl hlow hfree
    refine ⟨m, g, hcells, hpages, ?_⟩
    have hkeep : (s.countNonHost.visited m g p round fixed.length bad).Keeps s :=
      ⟨rfl, rfl, rfl, rfl, rfl, rfl, rfl, rfl, rfl⟩
    have hkinds : findingKinds fixed.length bad.length full = kinds := by
      simp only [findingKinds, List.length_eq_zero_iff, kinds]
    rw [execPatrolVisit_of_still hready hpick hgrant hkeep hstill', ← hkinds]
    rfl

end Sys2Proof.Machine
end

section
/-! CONFIGURE and APPLY: the return to CONFIG, and the record put in use. -/

namespace Sys2Proof.Machine

/-! ### A request that moves the lane -/

section Move

variable {s w : State} {k : ReqKind} {r : Request}

theorem hand_working (s : State) (p : PortId) (f : LaneFrame) : s.working.hand p f = (s.hand p f).working := by
  rw [hand_eq, hand_eq]; rfl

theorem receptionOver_working (s : State) (page : Option Nat) (why : Reason) :
    s.working.receptionOver page why = (s.receptionOver page why).working := rfl

/-- The event of a request whose handler has moved the lane and whose effects settle into the part `w`: the reply, then the
STATE frames, then ALERT. -/
theorem event_moved_reply {u : State} {st : Status} {b : ReplyBody} (hs : s.serves k r)
    (hd : s.working.dispatch k r [] = (u.setNotes Notes.ofMove).answer k r.tag st b)
    (hset : ((u.setNotes Notes.ofMove).answer k r.tag st b).settle = (w.setNotes Notes.ofMove).answer k r.tag st b)
    (he : w.EndsAs s.working) (hst : st ≠ .starting) :
    s.event (fun t => t.takeRequest k r []) =
      ((w.replying k r.tag st b).handBoth (.state w.lane.state w.lane.lastClosed)).withAlert := by
  have ⟨_, _, hj, h2, ⟨hlines, hq⟩, _⟩ := hs
  have haft : ((w.setNotes Notes.ofMove).answer k r.tag st b).afterwards = (w.setNotes Notes.ofMove).answer k r.tag st b := by
    refine afterwards_of_idle ?_ ?_
    · rw [← show s.working.link.job = none from hj, ← he.link]; rfl
    · rw [← show s.working.link.second = none from h2, ← he.link]; rfl
  have hpins : (w.replying k r.tag st b).drivePins = (w.replying k r.tag st b).withAlert := by
    rw [drivePins_alert (u := w.replying k r.tag st b) hlines he.pins he.permit he.phase,
      show s.pins = w.pins from he.pins.symm]
    rfl
  rw [State.event, takeRequest_of_serves hs, hd, hset, haft,
    closeEvent_of_moved_answer (he.notes.trans hq.notes_eq) (by rw [he.link]; rfl) hst, drivePins_handBoth, hpins,
    withAlert_handBoth]

end Move

/-! ### CONFIGURE (R165) -/

section Configure

variable {s w : State} {r : Request}

/-- The checks of a CONFIGURE. -/
theorem onConfigure_working (s : State) (r : Request) :
    s.working.onConfigure r =
      if s.lane.state ≠ .standby then s.working.refuse .configure r.tag .wrongState
      else if s.comm.locked = true then s.working.refuse .configure r.tag .locked
      else
        ((if s.xfer.role = .receiver .asking then s.working.endReception true none .receiverLeft else s.working).moveLane
          .config).refuse .configure r.tag .ok := rfl

/-- A CONFIGURE refused. -/
theorem execConfigure_refused {st : Status} (hstill : s.still) (hs : s.serves .configure r)
    (h : s.working.onConfigure r = s.working.refuse .configure r.tag st) (hst : st ≠ .starting) :
    exec (.configure r) s = .next (s.replying .configure r.tag st .empty) :=
  congrArg Host.Outcome.next (event_refused hs hstill h hst)

/-- A CONFIGURE that takes the lane, in STANDBY at the part `w`, to CONFIG. -/
theorem execConfigure_moves (hs : s.serves .configure r) (hstill : w.still) (he : w.EndsAs s) (hw : w.lane.state = .standby)
    (h : s.working.onConfigure r = (w.working.moveLane .config).refuse .configure r.tag .ok) :
    exec (.configure r) s = .next
      ((((w.rested .config).replying .configure r.tag .ok .empty).handBoth (.state .config w.lane.lastClosed)).withAlert) := by
  have ⟨_, _, _, _, ⟨_, hq⟩, _⟩ := hs
  have hworking : w.working.EndsAs s.working :=
    ⟨he.phase, congrArg (fun l : Link => { l with phase := .working, live := true }) he.link, he.notes, he.pins, he.permit⟩
  have hrest : (w.working.rested .config).EndsAs s.working :=
    (State.EndsAs.rested (s := w.working) (by rw [show w.working.lane.state = _ from hw]; decide) (by decide)).trans hworking
  rw [moveLane_eq_rested (s := w.working) (by rw [show w.working.lane.state = _ from hw]; decide)
    (by rw [show w.working.lane.state = _ from hw]; decide) (by decide) (hworking.quiet hq).2.2] at h
  have hset : (((w.working.rested .config).setNotes Notes.ofMove).answer .configure r.tag .ok .empty).settle =
      ((w.working.rested .config).setNotes Notes.ofMove).answer .configure r.tag .ok .empty :=
    settle_of_still (still_setLink.mpr (still_rested hstill .config))
  exact congrArg Host.Outcome.next (event_moved_reply (w := w.working.rested .config) hs h hset hrest (by decide))

end Configure

/-- The clauses of O59 on CONFIGURE. -/
theorem configure_clauses (s : State) (r : Request) (hstill : s.still) (hs : s.serves .configure r) :
    (s.lane.state ≠ .standby → exec (.configure r) s = .next (s.replying .configure r.tag .wrongState .empty)) ∧
    (s.lane.state = .standby → s.comm.locked = true →
      exec (.configure r) s = .next (s.replying .configure r.tag .locked .empty)) ∧
    (s.lane.state = .standby → s.comm.locked = false → s.xfer.role ≠ .receiver .asking →
      exec (.configure r) s = .next
        (((s.rested .config).replying .configure r.tag .ok .empty).handBoth (.state .config s.lane.lastClosed))) ∧
    (∀ d p, s.lane.state = .standby → s.comm.locked = false → s.xfer.role = .receiver .asking →
      s.xfer.partner = some (d, p) → s.roomFor 16 →
      exec (.configure r) s = .next
        (((((s.hand p (.joinAbort .receiverLeft)).receptionOver none .receiverLeft).rested .config).replying
          .configure r.tag .ok .empty).handBoth (.state .config s.lane.lastClosed)).withAlert) := by
  have ⟨_, _, _, _, ⟨⟨_, halert, _⟩, _⟩, _⟩ := hs
  have hconf := onConfigure_working s r
  refine ⟨fun hl => ?_, fun hl hk => ?_, fun hl hk hr => ?_, fun d p hl hk hr hp hroom => ?_⟩
  · rw [if_pos hl] at hconf
    exact execConfigure_refused hstill hs hconf (by decide)
  · rw [if_neg (not_not_intro hl), if_pos hk] at hconf
    exact execConfigure_refused hstill hs hconf (by decide)
  · rw [if_neg (not_not_intro hl), if_neg (by rw [hk]; decide), if_neg hr] at hconf
    have hline : ((s.rested .config).replying .configure r.tag .ok .empty).withAlert =
        (s.rested .config).replying .configure r.tag .ok .empty := withAlert_of_lines halert
    rw [execConfigure_moves hs hstill ⟨rfl, rfl, rfl, rfl, rfl⟩ hl hconf, withAlert_handBoth, hline]
  · have hend : s.working.endReception true none .receiverLeft =
        ((s.hand p (.joinAbort .receiverLeft)).receptionOver none .receiverLeft).working := by
      rw [endReception_eq (s := s.working) none .receiverLeft hroom, if_neg (by rw [show s.working.lane.state = _ from hl]; decide),
        if_pos rfl, handPartner_eq (s := s.working) hp, hand_working, receptionOver_working]
    rw [if_neg (not_not_intro hl), if_neg (by rw [hk]; decide), if_pos hr, hend] at hconf
    have he := (State.EndsAs.receptionOver (s.hand p (.joinAbort .receiverLeft)) none .receiverLeft).trans
      (hand_endsAs s p (.joinAbort .receiverLeft))
    have hstill' := still_receptionOver none .receiverLeft (still_hand hstill p (.joinAbort .receiverLeft))
      (by rw [hand_eq]; change s.xfer.role ≠ _; rw [hr]; decide)
    rw [execConfigure_moves hs hstill' he (by rw [hand_eq]; exact hl) hconf]
    rw [hand_eq]
    rfl

end Sys2Proof.Machine
end

section
/-! APPLY: the record put in use, and what it leaves of the pages, the restores and a checkpoint (R164). -/

namespace Sys2Proof.Machine

/-! ### Reads of a page table that has lost entries -/

section Tables

variable {α : Type} (d : α)

/-- Dropping the entries of some keys. -/
theorem tabGet_filter (f : Nat → Bool) (m : List (Nat × α)) (q : Nat) :
    tabGet d (m.filter (fun x => f x.1)) q = if f q = true then tabGet d m q else d := by
  induction m with
  | nil => simp [tabGet]
  | cons x m ih =>
    obtain ⟨k, v⟩ := x
    by_cases hk : q = k
    · subst hk
      cases hf : f q
      · simp [hf, ih]
      · simp [hf, tabGet]
    · cases hf : f k
      · simp [hf, ih, tabGet, hk]
      · simp [hf, ih, tabGet, hk]

/-- A key that reads as something else than an unlisted one is listed. -/
theorem mem_keys_of_tabGet_ne {m : List (Nat × α)} {q : Nat} (h : tabGet d m q ≠ d) : q ∈ m.map Prod.fst := by
  induction m with
  | nil => exact absurd rfl h
  | cons x m ih =>
    obtain ⟨k, v⟩ := x
    by_cases hk : q = k
    · simp [hk]
    · rw [tabGet, if_neg hk] at h
      exact List.mem_cons_of_mem k (ih h)

end Tables

/-! ### The end of a capture (R106) -/

section Capture

variable {s : State}

theorem mem_uncapturedPages {q : Nat} : q ∈ s.uncapturedPages ↔ (s.page q).uncaptured = true := by
  refine ⟨fun h => (List.mem_filter.mp h).2, fun h => List.mem_filter.mpr ⟨?_, h⟩⟩
  refine mem_keys_of_tabGet_ne PageRec.fresh fun hfresh => ?_
  rw [State.page, hfresh] at h
  exact absurd h (by decide)

/-- A page without its uncaptured mark. -/
def PageRec.captured (r : PageRec) : PageRec := { r with uncaptured := false }

theorem mapPages_eq (f : PageRec → PageRec) (ps : List Nat) (s : State) :
    s.mapPages f ps = s.setPages (s.mapPages f ps).pages := by
  induction ps generalizing s with
  | nil => rfl
  | cons p ps ih => exact (ih (s.mapPage p f)).trans rfl

theorem mapPages_working (f : PageRec → PageRec) (ps : List Nat) (s : State) :
    s.working.mapPages f ps = (s.mapPages f ps).working := by
  induction ps generalizing s with
  | nil => rfl
  | cons p ps ih => exact ih (s.mapPage p f)

/-- The pages after the marks of some of them are cleared. -/
theorem page_mapPages_captured (hwf : s.pagesWf = true) (ps : List Nat) (q : Nat) :
    (s.mapPages PageRec.captured ps).page q = if q ∈ ps then (s.page q).captured else s.page q := by
  induction ps generalizing s with
  | nil => rfl
  | cons p ps ih =>
    rw [State.mapPages, ih (s := s.mapPage p PageRec.captured) (pagesWf_putPage _ _ hwf)]
    by_cases hq : q = p
    · subst hq
      rw [State.mapPage, page_putPage_same (.inl hwf)]
      simp [PageRec.captured]
    · rw [State.mapPage, page_putPage_other _ _ hq]
      simp [hq]

/-- Clearing the marks of the uncaptured pages clears every mark. -/
theorem page_uncaptured_cleared (hwf : s.pagesWf = true) (q : Nat) :
    (s.mapPages PageRec.captured s.uncapturedPages).page q = (s.page q).captured := by
  rw [page_mapPages_captured hwf]
  split_ifs with hq
  · rfl
  · have hclear : (s.page q).uncaptured = false := by simpa [mem_uncapturedPages] using hq
    rw [PageRec.captured, ← hclear]

/-- The checkpoint engine after a cancellation, ERASING the slot it was to write (R106, log entry 17). -/
def Checkpoint.cancelled (c : Checkpoint) : Checkpoint :=
  { (c.putSlot c.target { state := .erasing, generation := none, cycle := none, start := none }) with
    state := .erasing, buffer := [], cycle := none, start := none, captured := 0, toCapture := 0
    erased := 0, begun := false, asked := false }

/-- The controller after a cancellation: the programs of the capture that wait are withdrawn, and the abandon mark of the
slot is asked for (R106, R94). -/
def Controller.cancelled (c : Controller) (slot : SlotId) : Controller :=
  let kept := c.waiting.filter (fun o => decide (o.rank ≠ 4))
  if c.op = none then { c with op := some (.programAbandon slot), waiting := kept }
  else { c with waiting := kept ++ [.programAbandon slot] }

theorem ask_abandon_eq (s : State) (slot : SlotId) :
    s.withdrawCapturePrograms.ask (.programAbandon slot) = s.setCtl (s.ctl.cancelled slot) := by
  have hkept : s.ctl.waiting.filter (fun o => o.rank != 4) = s.ctl.waiting.filter (fun o => decide (o.rank ≠ 4)) := by
    refine List.filter_congr fun o _ => ?_
    cases o <;> rfl
  unfold State.ask State.withdrawCapturePrograms Controller.cancelled
  rw [hkept]
  cases hop : s.ctl.op with
  | none => rw [State.setCtl_ctl, hop, if_pos rfl]; rfl
  | some o =>
    rw [State.setCtl_ctl, hop, if_neg (Option.some_ne_none o)]
    simp only [show (ArrayOp.programAbandon slot).isRead = false from rfl, Bool.false_and, Bool.false_eq_true, if_false]
    rw [hop]
    rfl

/-- A part whose checkpoint, if it was CAPTURING, is cancelled. -/
def State.captureOver (s : State) : State :=
  { s with
    pages := if s.ckpt.state = .capturing then (s.mapPages PageRec.captured s.uncapturedPages).pages else s.pages
    ckpt := if s.ckpt.state = .capturing then s.ckpt.cancelled else s.ckpt
    journal := if s.ckpt.state = .capturing then s.journal.ended else s.journal
    ctl := if s.ckpt.state = .capturing then s.ctl.cancelled s.ckpt.target else s.ctl }

theorem captureOver_eq (s : State) :
    (if s.ckpt.state = .capturing then s.abandonCheckpoint else s) = s.captureOver := by
  unfold State.captureOver
  split_ifs
  · unfold State.abandonCheckpoint
    rw [ask_abandon_eq, show (fun r : PageRec => { r with uncaptured := false }) = PageRec.captured from rfl, mapPages_eq]
    rfl
  · rfl

theorem captureOver_working (s : State) : s.working.captureOver = s.captureOver.working := by
  unfold State.captureOver
  rw [show s.working.uncapturedPages = s.uncapturedPages from rfl, mapPages_working]
  rfl

theorem page_captureOver (hwf : s.ckpt.state = .capturing → s.pagesWf = true) (q : Nat) :
    s.captureOver.page q = if s.ckpt.state = .capturing then (s.page q).captured else s.page q := by
  unfold State.captureOver State.page
  split_ifs with hc
  · exact page_uncaptured_cleared (hwf hc) q
  · rfl

/-- A journal that ends its snapshot and breaks. -/
theorem Journal.ended_broken (j : Journal) :
    { j.ended with state := .broken, records := [], base := none } =
      { j with state := .broken, records := [], base := none, start := none } := by
  unfold Journal.ended
  split <;> rfl

end Capture

/-! ### The record put in use -/

/-- A record's table maps a page. -/
def recordMaps (x : CommRecord) (q : Nat) : Bool :=
  x.regions.any (fun g => decide (g.first ≤ q) && decide (q ≤ g.last))

/-- The retry limit by its ranges (R161). -/
theorem clampRecord_eq (x : CommRecord) :
    clampRecord x = { clampRecord x with
      retryLimit := if x.retryLimit ≤ 3 then 2 else if x.retryLimit ≤ 7 then 4 else if x.retryLimit ≤ 15 then 8 else 16 } := by
  simp only [clampRecord, Nat.lt_succ_iff]

section InUse

variable (s : State) (x : CommRecord)

/-- A part whose record in use is that of `x`, with what an APPLY makes of the pages, the restores, the patrol cursor, the
journal, the peers and the alert mask (R164). -/
def State.inUse : State :=
  { s with
    comm := { s.comm with inUse := some (clampRecord x) }
    pages := s.pages.filter (fun e => recordMaps x e.1)
    suspects := s.suspects.filter (fun a => recordMaps x (a / 64))
    rest := { s.rest with
      list := s.rest.list.filter (recordMaps x)
      op :=
        match s.rest.op with
        | .page p _ _ _ => if recordMaps x p = true then s.rest.op else .none
        | o => o }
    patrol := { s.patrol with cursor := cursorMoved ((List.range 256).filter (recordMaps x)) s.patrol.cursor }
    journal := { s.journal with state := .broken, records := [], base := none }
    lane := { s.lane with
      peer1 := Peer.fresh (some (expectedLane x.lane .one)), peer2 := Peer.fresh (some (expectedLane x.lane .two)) }
    faults := { s.faults with mask := x.alertMask } }

/-- A part that has put a record in use, its high-mark run as the new marks make it, in STANDBY. -/
def State.applied : State := (s.captureOver.inUse x).updateRun.rested .standby

theorem mapped_inUse : (s.setComm { s.comm with inUse := some (clampRecord x) }).mapped = recordMaps x := by
  funext q
  exact List.isSome_find?

/-- Pages the table in use leaves unmapped are dropped (R8, R118). -/
theorem dropUnmapped_eq {f : Nat → Bool} {u : State} (h : u.mapped = f) :
    u.dropUnmapped = { u with
      pages := u.pages.filter (fun e => f e.1)
      suspects := u.suspects.filter (fun a => f (a / 64))
      rest := { u.rest with
        list := u.rest.list.filter f
        op :=
          match u.rest.op with
          | .page p _ _ _ => if f p = true then u.rest.op else .none
          | o => o } } := by
  subst h
  rfl

theorem putInUse_eq : s.putInUse x = (s.captureOver.inUse x).moveLane .standby := by
  unfold State.putInUse
  rw [captureOver_eq]
  generalize s.captureOver = u
  refine congrArg (State.moveLane · .standby) ?_
  rw [dropUnmapped_eq (mapped_inUse u x), State.inUse, ← mapped_inUse u x]
  rfl

theorem page_inUse (q : Nat) : (s.inUse x).page q = if recordMaps x q = true then s.page q else PageRec.fresh :=
  tabGet_filter PageRec.fresh (recordMaps x) s.pages q

theorem inUse_working : s.working.inUse x = (s.inUse x).working := rfl

end InUse

/-! ### An accepted APPLY -/

section Apply

variable {s : State} {x : CommRecord} {r : Request}

/-- A checkpoint that stood still stands still under the new table: one that was CAPTURING is cancelled, and the pages of one in
FINISHING lose no restore that they wait for. -/
theorem flightStands_inUse (h : s.flightStands = true) : (s.captureOver.inUse x).flightStands = true := by
  have hckpt : (s.captureOver.inUse x).ckpt = if s.ckpt.state = .capturing then s.ckpt.cancelled else s.ckpt := rfl
  unfold State.flightStands at h ⊢
  rw [hckpt]
  cases hs : s.ckpt.state with
  | idle => simp [hs]
  | erasing => simp [hs]
  | capturing => rfl
  | finishing =>
    rw [if_neg (by decide), hs]
    simp only [hs, Bool.not_eq_true', List.any_eq_false, mem_uncapturedPages] at h ⊢
    have hpage : ∀ q, (s.captureOver.inUse x).page q = if recordMaps x q = true then s.page q else PageRec.fresh := by
      intro q
      have hq : s.captureOver.page q = s.page q := by
        rw [page_captureOver (by simp [hs]), hs, if_neg (by decide)]
      rw [page_inUse, hq]
    intro q hq
    cases hm : recordMaps x q with
    | false =>
      rw [hpage, hm] at hq
      simp [PageRec.fresh] at hq
    | true =>
      rw [hpage, hm, if_pos rfl] at hq
      have hres := h q hq
      unfold State.unrestorable at hres ⊢
      rw [hpage, hm, if_pos rfl, show (s.captureOver.inUse x).rest.list = s.rest.list.filter (recordMaps x) from rfl]
      simpa [hm] using hres

/-- So does the pre-erase. -/
theorem eraseStands_inUse (h : s.eraseStands = true) : (s.captureOver.inUse x).eraseStands = true := by
  by_cases hc : s.ckpt.state = .capturing
  · have : (s.captureOver.inUse x).ckpt = s.ckpt.cancelled := if_pos hc
    rw [State.eraseStands, this]
    rfl
  · have : (s.captureOver.inUse x).ckpt = s.ckpt := if_neg hc
    rw [State.eraseStands, this]
    exact h

/-- No restore can be taken: an operation goes on, or no listed page is left. -/
theorem rest_inUse (h : s.rest.op ≠ .none ∨ s.rest.list = [])
    (hop : ∀ p sl n c, s.rest.op = .page p sl n c → recordMaps x p = true ∨ s.rest.list.filter (recordMaps x) = []) :
    (s.captureOver.inUse x).rest.op ≠ .none ∨ (s.captureOver.inUse x).rest.list = [] := by
  have hrest : (s.captureOver.inUse x).rest = (s.inUse x).rest := rfl
  rw [hrest]
  unfold State.inUse
  rcases h with h | h
  · cases ho : s.rest.op with
    | none => exact absurd ho h
    | page p sl n c => exact (hop p sl n c ho).imp (fun hm => by simp [hm]) id
    | image i => exact .inl (by simp)
  · exact .inr (by simp [h])

/-- Where only the high-mark run is left to settle, an answered move of the lane settles into what it makes of the state. -/
theorem settle_moved {v : State} {l : LaneState} {k : ReqKind} {tag : Byte} {st : Status} {b : ReplyBody}
    (hrun : v.phase = .running) (hclose : v.closeStands = true) (hrest : v.rest.op ≠ .none ∨ v.rest.list = [])
    (hflight : v.flightStands = true) (hdonor : v.donorStands = true) (hcheck : v.checkStands = true)
    (herase : v.eraseStands = true) :
    (((v.rested l).setNotes Notes.ofMove).answer k tag st b).settle =
      ((v.updateRun.rested l).setNotes Notes.ofMove).answer k tag st b :=
  (if_pos hrun).trans (settleBlocks_of_run hclose hrest hflight hdonor hcheck herase)

theorem applied_working (s : State) (x : CommRecord) :
    (s.captureOver.inUse x).working.updateRun.rested .standby = (s.applied x).working := rfl

/-- Only the high-mark run is left to settle after an APPLY. -/
theorem settle_inUse {st : Status} {b : ReplyBody} (hstill : s.still) (hrun : s.phase = .running) (hc : s.lane.close = none)
    (hrole : s.xfer.role = .none)
    (hop : ∀ p sl n c, s.rest.op = .page p sl n c → recordMaps x p = true ∨ s.rest.list.filter (recordMaps x) = []) :
    ((((s.captureOver.inUse x).working.rested .standby).setNotes Notes.ofMove).answer .apply r.tag st b).settle =
      ((s.applied x).working.setNotes Notes.ofMove).answer .apply r.tag st b := by
  obtain ⟨-, hrest, hflight, -, -, -, herase⟩ := hstill
  have hclose : (s.captureOver.inUse x).closeStands = true := by
    have : (s.captureOver.inUse x).lane.close = none := hc
    rw [State.closeStands, this]
  have hdonor : (s.captureOver.inUse x).donorStands = true := by
    have : (s.captureOver.inUse x).xfer.role = .none := hrole
    rw [State.donorStands, this]
    rfl
  have hcheck : (s.captureOver.inUse x).checkStands = true := by
    have : (s.captureOver.inUse x).xfer.role = .none := hrole
    rw [State.checkStands, this]
    rfl
  rw [settle_moved (v := (s.captureOver.inUse x).working) hrun hclose (rest_inUse hrest hop)
    (flightStands_inUse (x := x) hflight) hdonor hcheck (eraseStands_inUse (x := x) herase), applied_working s x]

theorem applied_endsAs (hl : s.lane.state = .config) : (s.applied x).EndsAs s :=
  ⟨rfl, rfl, rfl, rfl, by
    have hs : s.permitCond = false := by simp [State.permitCond, hl]
    rw [hs]
    rfl⟩

/-- The checks of an APPLY. -/
theorem onApply_working (s : State) (r : Request) :
    s.working.onApply r =
      if s.lane.state ≠ .config then s.working.refuse .apply r.tag .wrongState
      else if s.lane.close.isSome = true then s.working.refuse .apply r.tag .closePending
      else
        match testStored s.comm.stored with
        | .error f => s.working.invalidConfig .apply r.tag f
        | .ok x => (s.working.putInUse x).refuse .apply r.tag .ok := by
  unfold State.onApply
  rfl

/-- An APPLY that is not accepted. -/
theorem execApply_refused {st : Status} {b : ReplyBody} (hs : s.serves .apply r) (hstill : s.still)
    (h : s.working.onApply r = s.working.answer .apply r.tag st b) (hst : st ≠ .starting) :
    exec (.apply r) s = .next (s.replying .apply r.tag st b) :=
  congrArg Host.Outcome.next (event_refused hs hstill h hst)

/-- An APPLY whose stored record is valid. -/
theorem execApply_accepted (hs : s.serves .apply r) (hstill : s.still) (hl : s.lane.state = .config)
    (hc : s.lane.close = none) (hx : testStored s.comm.stored = .ok x) (hrole : s.xfer.role = .none)
    (hop : ∀ p sl n c, s.rest.op = .page p sl n c → recordMaps x p = true ∨ s.rest.list.filter (recordMaps x) = []) :
    exec (.apply r) s = .next
      ((((s.applied x).replying .apply r.tag .ok .empty).handBoth (.state .standby s.lane.lastClosed)).withAlert) := by
  have ⟨hrun, _, _, _, ⟨_, hq⟩, _⟩ := hs
  have hworking : (s.captureOver.inUse x).working.EndsAs s.working := ⟨rfl, rfl, rfl, rfl, rfl⟩
  have hw : (s.captureOver.inUse x).working.lane.state = .config := hl
  have hmove : (s.captureOver.inUse x).working.moveLane .standby =
      ((s.captureOver.inUse x).working.rested .standby).setNotes Notes.ofMove :=
    moveLane_eq_rested (by rw [hw]; decide) (by rw [hw]; decide) (by decide) (hworking.quiet hq).2.2
  have hd : s.working.dispatch .apply r [] =
      (((s.captureOver.inUse x).working.rested .standby).setNotes Notes.ofMove).answer .apply r.tag .ok .empty := by
    change s.working.onApply r = _
    rw [onApply_working, if_neg (not_not_intro hl), hc, if_neg (by decide), hx]
    simp only [putInUse_eq, captureOver_working, inUse_working, hmove]
    rfl
  have hends : (s.applied x).working.EndsAs s.working :=
    have he := applied_endsAs (x := x) hl
    ⟨he.phase, rfl, he.notes, he.pins, he.permit⟩
  refine congrArg Host.Outcome.next
    ((event_moved_reply hs hd (settle_inUse hstill hrun hc hrole hop) hends (by decide)).trans ?_)
  rw [working_replying]
  rfl

/-- What a part that has put a record in use holds, field by field, of what the cancelled checkpoint leaves. -/
theorem applied_eq (s : State) (x : CommRecord) (cancels : Bool) (hc : cancels = decide (s.ckpt.state = .capturing)) :
    let h := min 8 (max 1 x.highMark)
    let l := min (h - 1) x.lowMark
    let count := s.queue.entries.length
    s.applied x = { s.inUse x with
      pages := (s.captureOver.inUse x).pages
      comm := { s.comm with inUse := some (clampRecord x) }
      queue := { s.queue with run := if h ≤ count then true else if count ≤ l then false else s.queue.run }
      journal := { s.journal with
        state := .broken, records := [], base := none, start := if cancels = true then none else s.journal.start }
      ckpt := if cancels = true then s.ckpt.cancelled else s.ckpt
      ctl := if cancels = false then s.ctl else s.ctl.cancelled s.ckpt.target
      lane := { s.lane with
        state := .standby, peer1 := Peer.fresh (some (expectedLane x.lane .one))
        peer2 := Peer.fresh (some (expectedLane x.lane .two)) } } := by
  intro h l count
  subst hc
  by_cases hcap : s.ckpt.state = .capturing
  · have hckpt : s.captureOver = { s with
        pages := s.captureOver.pages, ckpt := s.ckpt.cancelled, journal := s.journal.ended
        ctl := s.ctl.cancelled s.ckpt.target } := by
      simp only [State.captureOver, hcap, if_true]
    rw [State.applied, hckpt]
    simp only [hcap, decide_true, if_true, Bool.true_eq_false, if_false, ← Journal.ended_broken]
    rfl
  · have hckpt : s.captureOver = s := by
      simp only [State.captureOver, hcap, if_false]
    rw [State.applied, hckpt]
    simp only [hcap, decide_false, if_true, Bool.false_eq_true, if_false]
    rfl

/-- The ports of a part with a lane number after a frame is handed to one of them. -/
theorem portsWith_of_lane {n : Nat} (h : s.laneNumber = some n) (p : PortId) (f : LaneFrame) :
    s.portsWith p f = s.ports.put p ((s.ports.at p).hand { lane := n, frame := f }) := by
  rw [State.portsWith, h]

/-- The ports after a frame is handed to both. -/
theorem ports_handBoth {n : Nat} (h : s.laneNumber = some n) (f : LaneFrame) (p : PortId) :
    (s.handBoth f).ports.at p = (s.ports.at p).hand { lane := n, frame := f } := by
  have hset : ∀ x, (s.setPorts x).laneNumber = some n := fun _ => h
  rw [handBoth_eq, portsWith_of_lane h, portsWith_of_lane (hset _)]
  cases p <;> rfl

/-- The refusals of an APPLY. -/
theorem apply_refusals (s : State) (r : Request) (hstill : s.still) (hs : s.serves .apply r) :
    (s.lane.state ≠ .config → exec (.apply r) s = .next (s.replying .apply r.tag .wrongState .empty)) ∧
    (s.lane.state = .config → s.lane.close ≠ none →
      exec (.apply r) s = .next (s.replying .apply r.tag .closePending .empty)) ∧
    (∀ f, s.lane.state = .config → s.lane.close = none → testStored s.comm.stored = .error f →
      exec (.apply r) s = .next (s.replying .apply r.tag .invalidConfig (.failingRule f.rule f.first f.second))) := by
  have happly := onApply_working s r
  refine ⟨fun hl => ?_, fun hl hc => ?_, fun f hl hc hx => ?_⟩
  · rw [if_pos hl] at happly
    exact execApply_refused hs hstill happly (by decide)
  · rw [if_neg (not_not_intro hl), if_pos (Option.isSome_iff_ne_none.mpr hc)] at happly
    exact execApply_refused hs hstill happly (by decide)
  · rw [if_neg (not_not_intro hl), hc, if_neg (by decide), hx] at happly
    exact execApply_refused hs hstill happly (by decide)

end Apply

/-- Settles O59: a refusal is an answer that nothing follows; an accepted APPLY leaves only the high-mark run to settle. -/
theorem applyAndConfigureChangeTheRecordInUse : Obligations.ApplyAndConfigureChangeTheRecordInUse := by
  intro s r hstill
  refine ⟨fun hs => ?_, configure_clauses s r hstill⟩
  obtain ⟨hwrong, hpending, hinvalid⟩ := apply_refusals s r hstill hs
  refine ⟨hwrong, hpending, fun hl hc hx => ?_, fun x k e hl hc hx hfail => ?_,
    ?_⟩
  · refine hinvalid { rule := .noRecord, first := none, second := none } hl hc ?_
    rcases hx with hx | hx <;> rw [hx] <;> rfl
  · exact hinvalid e hl hc (by simp only [hx, testStored, hfail])
  · intro x k hl hc hx hvalid hrole hwf maps left hop slot kept cancels h l count inUse
    have htest : testStored s.comm.stored = .ok x := by simp only [hx, testStored, hvalid]
    refine ⟨(s.captureOver.inUse x).pages, _, execApply_accepted hs hstill hl hc htest hrole hop, fun p => ?_, fun q => ?_, ?_⟩
    · exact ports_handBoth (s := (s.applied x).replying .apply r.tag .ok .empty) (n := x.lane) rfl _ p
    · have hpage : (s.setPages (s.captureOver.inUse x).pages).page q = (s.captureOver.inUse x).page q := rfl
      rw [hpage, page_inUse, page_captureOver hwf]
      simp only [cancels, decide_eq_true_eq]
      rfl
    · rw [applied_eq s x cancels rfl, clampRecord_eq]
      rfl

end Sys2Proof.Machine
end

section
/-! The capacities of 1.7: the bounded stores and counts, and that what one event sets off keeps each within its bound. -/

namespace Sys2Proof.Machine

/-- The write queue has room for `n` entries of one cell besides those it holds and those that are owed (R19, R20). -/
def roomLeft (n : Nat) (entries : List Entry) (owed : Nat) : Prop :=
  entries.length + owed + n ≤ 8 ∧ queueCellCount entries + owed + n ≤ 64

/-- The bounded stores and counts but for the write queue keep their bounds, and `Q` holds of the queue's entries and of what a
waiting EXCHANGE has yet to post. With `Q` free, what keeps this leaves both as they are or as `Q` allows. -/
structure State.Within (s : State) (Q : List Entry → Nat → Prop) : Prop where
  p : s.pressure.p ≤ 1023
  abstain : s.lane.abstain ≤ 7
  queue : Q s.queue.entries s.entriesOwed
  suspects : s.suspects.length ≤ 32
  nodup : s.suspects.Nodup
  records : s.journal.records.length ≤ 1024
  history : s.lane.history.length ≤ 16
  list : s.rest.list.length ≤ 64
  buffer : s.ckpt.buffer.length ≤ 8
  inbound : s.xfer.inbound.length ≤ 4

/-- With a queue that has room for what is owed, these are the bounds of 1.7. -/
theorem within_roomLeft_iff {s : State} : s.Within (roomLeft 0) ↔ s.bounded := by
  refine ⟨fun h => ⟨⟨h.p, h.abstain⟩, h.queue, h.suspects, h.nodup, h.records, h.history, h.list, h.buffer,
    h.inbound⟩, ?_⟩
  rintro ⟨⟨hp, ha⟩, hq, hs, hn, hr, hh, hl, hb, hi⟩
  exact ⟨hp, ha, hq, hs, hn, hr, hh, hl, hb, hi⟩

/-- A change of the last element of a list keeps its length. -/
@[simp] theorem length_mapLast {α : Type} (f : α → α) (l : List α) : (mapLast f l).length = l.length := by
  induction l with
  | nil => rfl
  | cons a l ih =>
    cases l with
    | nil => rfl
    | cons b l => simp only [mapLast, List.length_cons] at ih ⊢; omega

namespace State.Within

variable {s t : State} {Q : List Entry → Nat → Prop}

theorem ite {c : Prop} [Decidable c] (h : s.Within Q) (h' : t.Within Q) : (if c then s else t).Within Q := by
  split_ifs <;> assumption

section Raises

variable (h : s.Within Q)
include h

/-! ### Raises, lane moves and the end of an event -/

theorem setNotes (x : Notes) : (s.setNotes x).Within Q := { h with }

theorem noteKind (k : FaultKind) : (s.noteKind k).Within Q := { h with }

theorem placeFrame (f : FaultFrame) : (s.placeFrame f).Within Q := by
  unfold State.placeFrame
  split
  · exact { h with }
  · exact { h with }
  · exact ite { h with } { h with }

theorem addPressure (w : Nat) : (s.addPressure w).Within Q := by
  have hp : (s.setPressure { s.pressure with p := pressureAfter s.pressure.p w }).Within Q :=
    { h with p := min_le_left .. }
  have hpace : ∀ x, ((s.setPressure { s.pressure with p := pressureAfter s.pressure.p w }).setPatrol x).Within Q :=
    fun _ => { hp with }
  exact ite (noteKind (ite hp (hpace _)) _) (ite hp (hpace _))

theorem raiseCore (k : FaultKind) (w : Nat) : (s.raiseCore k w).Within Q := (h.noteKind k).addPressure w

theorem setClose (c : Option Close) : (s.setLane { s.lane with close := c }).Within Q := { h with }

theorem retireClose : s.retireClose.Within Q := by
  unfold State.retireClose
  split
  · exact h
  · exact ite (h.setClose none) h

theorem releaseHold : s.releaseHold.Within Q := by
  unfold State.releaseHold
  split
  · exact h
  · exact retireClose { h with }

theorem dropVote : s.dropVote.Within Q := by
  unfold State.dropVote
  split
  · exact h
  · exact ite (retireClose { h with history := (length_mapLast ..).trans_le h.history }) h

theorem mapPeer (p : PortId) (f : Peer → Peer) : (s.mapPeer p f).Within Q := by cases p <;> exact { h with }

theorem mapPeers (f : Peer → Peer) : (s.mapPeers f).Within Q := (h.mapPeer .one f).mapPeer .two f

theorem clearTransfer : s.clearTransfer.Within Q :=
  mapPeers (s := s.setXfer Transfer.fresh) { h with inbound := Nat.zero_le _ } _

theorem hand (p : PortId) (f : LaneFrame) : (s.hand p f).Within Q := by rw [hand_eq]; exact { h with }

theorem handBoth (f : LaneFrame) : (s.handBoth f).Within Q := (h.hand .one f).hand .two f

theorem handPartner (f : LaneFrame) : (s.handPartner f).Within Q := by
  unfold State.handPartner
  split
  · exact h
  · exact h.hand _ f

theorem donationOver (abort : Option Reason) : (s.donationOver abort).Within Q := by
  unfold State.donationOver
  extract_lets held
  cases abort with
  | none => exact ite h.clearTransfer.releaseHold h.clearTransfer
  | some why => exact ite (h.handPartner _).clearTransfer.releaseHold (h.handPartner _).clearTransfer

theorem shiftLane (x : LaneState) : (s.shiftLane x).Within Q := by
  unfold State.shiftLane
  extract_lets was _ _ s1 s2 s3 _ s4
  have h1 : s1.Within Q := { h with }
  have h2 : s2.Within Q := ite h1 (h1.mapPeers _)
  have h3 : s3.Within Q := ite h2.dropVote h2
  have h4 : s4.Within Q := ite { h3 with } h3
  exact ite h (ite (((h4.donationOver _).raiseCore _ _).placeFrame _) h4)

theorem selfWithdraw : s.selfWithdraw.Within Q :=
  ((h.raiseCore _ _).setNotes _).shiftLane _

theorem moveLane (x : LaneState) : (s.moveLane x).Within Q :=
  ite h (ite (h.shiftLane x).selfWithdraw (h.shiftLane x))

theorem raise (k : FaultKind) (w : Nat) : (s.raise k w).Within Q :=
  ite (h.raiseCore k w).selfWithdraw (h.raiseCore k w)

omit h in
theorem raiseTimes (h : s.Within Q) (k : FaultKind) (w m : Nat) : (s.raiseTimes k w m).Within Q := by
  induction m generalizing s with
  | zero => exact h
  | succ m ih => exact ih (h.raise k w)

theorem endDonation (abort : Option Reason) (page : Option Nat) (retry : Nat) (why : Reason) :
    (s.endDonation abort page retry why).Within Q := ((h.donationOver abort).raise _ _).placeFrame _

theorem endReception (abort : Bool) (page : Option Nat) (why : Reason) : (s.endReception abort page why).Within Q := by
  unfold State.endReception
  extract_lets s1 s2 s3
  have h1 : s1.Within Q := ite (h.handPartner _) h
  have h3 : s3.Within Q := (h1.clearTransfer.raise _ _).placeFrame _
  exact ite (h3.moveLane _) h3

theorem frameOwed : s.frameOwed.Within Q := ite { h.placeFrame _ with } h

theorem buildReply : s.buildReply.Within Q := by
  unfold State.buildReply
  split
  · exact h
  · exact ite { h with } { h with }

theorem tellState : s.tellState.Within Q := by
  have ht : (if s.notes.moved then s.handBoth (.state s.lane.state s.lane.lastClosed) else s).Within Q :=
    ite (h.handBoth _) h
  exact { ht with }

theorem eventOver : s.eventOver.Within Q := h.frameOwed.tellState

theorem closeEvent : s.closeEvent.Within Q := { h.frameOwed.buildReply.tellState with }

end Raises

end State.Within
end Sys2Proof.Machine
end

section
/-! The blocks within an event: the store, the checkpoint, restore and transfer engines, and the lane keep every bound. -/

namespace Sys2Proof.Machine

/-- The end of a checkpoint in flight leaves the journal no longer. -/
theorem length_ended_le (j : Journal) : j.ended.records.length ≤ j.records.length := by
  unfold Journal.ended
  split
  · exact Nat.zero_le _
  · exact le_rfl

theorem length_setDrop_le (a : Nat) (x : List Nat) : (setDrop a x).length ≤ x.length := List.length_filter_le _ _

theorem length_addHistory_le {h : List CycleRecord} (hl : h.length ≤ 16) (r : CycleRecord) :
    (addHistory h r).length ≤ 16 := by
  unfold addHistory
  split_ifs with hc
  · rw [List.length_append, List.length_tail, List.length_singleton]; omega
  · rw [Config.historyRecords] at hc
    rw [List.length_append, List.length_singleton]; omega

namespace State.Within

variable {s t : State} {Q : List Entry → Nat → Prop}

/-! ### Updates of what has no bound, and the store -/

section Store

variable (h : s.Within Q)
include h

theorem setImage (x : List (Nat × Option StoredCell)) : (s.setImage x).Within Q := { h with }
theorem setPages (x : List (Nat × PageRec)) : (s.setPages x).Within Q := { h with }
theorem setSign (x : SignUnit) : (s.setSign x).Within Q := { h with }
theorem setCtl (x : Controller) : (s.setCtl x).Within Q := { h with }
theorem setArray (x : RetArray) : (s.setArray x).Within Q := { h with }
theorem setComm (x : Commissioning) : (s.setComm x).Within Q := { h with }
theorem setPatrol (x : Patrol) : (s.setPatrol x).Within Q := { h with }
theorem setPorts (x : Ports) : (s.setPorts x).Within Q := { h with }
theorem setFaults (x : FaultStore) : (s.setFaults x).Within Q := { h with }
theorem setHostGrants (x : Nat) : (s.setHostGrants x).Within Q := { h with }

theorem setXfer {x : Transfer} (hx : x.inbound.length ≤ 4) : (s.setXfer x).Within Q := { h with inbound := hx }

theorem setCkpt {x : Checkpoint} (hx : x.buffer.length ≤ 8) : (s.setCkpt x).Within Q := { h with buffer := hx }

theorem setRest {x : Restore} (hx : x.list.length ≤ 64) : (s.setRest x).Within Q := { h with list := hx }

theorem setJournal {x : Journal} (hx : x.records.length ≤ 1024) : (s.setJournal x).Within Q := { h with records := hx }

theorem setLane {x : LaneUnit} (ha : x.abstain ≤ 7) (hh : x.history.length ≤ 16) : (s.setLane x).Within Q :=
  { h with abstain := ha, history := hh }

theorem strike (us : List Upset) : (s.strike us).Within Q := by rw [strike_eq_setImage]; exact h.setImage _

theorem scanPage (skip : Nat → Bool) (p : Nat) : (scanPage skip p s).1.Within Q := by
  rw [Machine.scanPage, scanCells_eq_setImage]
  exact h.setImage _

theorem writeRun (a : Nat) (vs : List Word) : (s.writeRun a vs).Within Q := by rw [writeRun_eq]; exact h.setImage _

theorem mapPage (p : Nat) (f : PageRec → PageRec) : (s.mapPage p f).Within Q := h.setPages _

theorem mapPages (f : PageRec → PageRec) (ps : List Nat) : (s.mapPages f ps).Within Q := by
  rw [mapPages_eq]
  exact h.setPages _

theorem filterSuspects (f : Nat → Bool) : (s.setSuspects (s.suspects.filter f)).Within Q :=
  { h with suspects := (List.length_filter_le ..).trans h.suspects, nodup := h.nodup.filter f }

/-! ### Findings -/

theorem lostReceived (p : Nat) : (s.lostReceived p).Within Q := by
  unfold State.lostReceived
  split
  · exact ite ((h.setXfer (by exact h.inbound)).handPartner _) h
  · exact h

theorem makeSuspect (p : Nat) : (s.makeSuspect p).Within Q := ite ((h.mapPage _ _).lostReceived _) h

theorem offerRestore (p : Nat) : (s.offerRestore p).Within Q := by
  unfold State.offerRestore
  split_ifs with hin hfull
  · exact h
  · exact (h.raise _ _).placeFrame _
  · refine h.setRest ?_
    rw [Config.restoreListPages] at hfull
    rw [List.length_append, List.length_singleton]
    omega

/-- A cell goes to the suspect list only where the list has room and does not hold it. -/
theorem offerSuspect (p o : Nat) : (offerSuspect p o s).1.Within Q := by
  unfold Machine.offerSuspect
  split_ifs with hall hin hroom
  · exact h
  · exact h
  · rw [State.listed, List.contains_eq_mem, decide_eq_true_eq] at hin
    refine { h with suspects := ?_, nodup := h.nodup.append (List.nodup_singleton _) ?_ }
    · rw [Config.suspectCells] at hroom
      rw [State.setSuspects_suspects, List.length_append, List.length_singleton]
      omega
    · exact List.disjoint_singleton.mpr hin
  · exact h.setPages _

omit h in
theorem offerSuspects (h : s.Within Q) (p : Nat) (os : List Nat) : (offerSuspects p os s).1.Within Q := by
  induction os generalizing s with
  | nil => exact h
  | cons o os ih => exact ih (h.offerSuspect p o)

theorem handOn (p : Nat) (r : Scan) : (s.handOn p r).Within Q := by
  unfold State.handOn
  extract_lets o full s1 s2 s3 s4 s5 s6
  have h1 : s1.Within Q := h.offerSuspects p r.bad
  have h2 : s2.Within Q := ite h1 (h1.makeSuspect p)
  have h3 : s3.Within Q := ite (h2.offerRestore p) h2
  have h4 : s4.Within Q := ite h3 (h3.raise _ _)
  have h5 : s5.Within Q := h4.raiseTimes _ _ _
  have h6 : s6.Within Q := ite (h5.raise _ _) h5
  exact ite h6 (h6.placeFrame _)

/-! ### The journal -/

theorem breakJournal : s.breakJournal.Within Q := h.setJournal (Nat.zero_le _)

theorem journalBreaks (p : Nat) (why : Reason) : (s.journalBreaks p why).Within Q :=
  (h.breakJournal.raise _ _).placeFrame _

theorem addRecord (e : Entry) (hroom : s.journal.records.length < 1024) : (s.addRecord e).Within Q := by
  have hput : ∀ j : Journal, j.records.length = s.journal.records.length + 1 → (s.setJournal j).Within Q :=
    fun j hj => h.setJournal (by omega)
  exact ite ((hput _ (List.length_append ..)).raise _ _) (hput _ (List.length_append ..))

theorem journalAppend (e : Entry) : (s.journalAppend e).Within Q := by
  unfold State.journalAppend
  extract_lets j
  split_ifs with hbroken hnext hroom
  · exact h
  · exact (h.setJournal (by exact h.records)).journalBreaks _ _
  · exact h.addRecord e hroom
  · split
    · exact h.journalBreaks _ _
    · extract_lets kept
      split_ifs with hkept
      · exact (h.setJournal (by exact hkept.le)).addRecord e hkept
      · exact h.journalBreaks _ _

theorem journalOpens : s.journalOpens.Within Q := by
  refine h.setJournal ?_
  split
  · exact Nat.zero_le _
  · exact h.records

theorem journalCompletes (slot : SlotId) (g : Option Word) : (s.journalCompletes slot g).Within Q := by
  refine h.setJournal ?_
  cases hj : s.journal.state
  · exact (List.length_filter_le ..).trans h.records
  · exact h.records
  · exact h.records

theorem journalEnded : (s.setJournal s.journal.ended).Within Q :=
  h.setJournal ((length_ended_le _).trans h.records)

/-! ### The drain policy -/

theorem updateRun : s.updateRun.Within Q := { h with }

theorem drainPage (e : Entry) : (s.drainPage e).Within Q := by
  unfold State.drainPage
  extract_lets cells s1 s2 clean
  have h1 : s1.Within Q := h.writeRun _ _
  have h2 : s2.Within Q := h1.filterSuspects _
  exact h2.mapPage _ _

theorem resendIfSent (p : Nat) : (s.resendIfSent p).Within Q := ite (h.setXfer (by exact h.inbound)) h

/-- The queue and what is owed are left alone by whatever keeps every `Q`. -/
theorem sameQueue : s.Within (fun es o => es = s.queue.entries ∧ o = s.entriesOwed) := { h with queue := ⟨rfl, rfl⟩ }

omit h in
theorem drainHead {n : Nat} (h : s.Within (roomLeft n)) : s.drainHead.Within (roomLeft n) := by
  unfold State.drainHead
  split
  · exact h
  · next e rest hq =>
    obtain ⟨hlen, hcells⟩ := h.queue
    rw [hq, List.length_cons] at hlen
    rw [hq, queueCellCount, List.map_cons, List.sum_cons] at hcells
    have hrest : roomLeft n rest s.entriesOwed := ⟨by omega, by unfold queueCellCount; omega⟩
    have hpop : ∀ {t : State} (x : Queue), t.Within (fun es o => es = s.queue.entries ∧ o = s.entriesOwed) →
        x.entries = rest → (t.setQueue x).Within (roomLeft n) := by
      intro t x ht hx
      refine { ht with queue := ?_ }
      change roomLeft n x.entries t.entriesOwed
      rw [hx, ht.queue.2]
      exact hrest
    split
    · exact hpop _ h.sameQueue rfl
    · extract_lets s1 s2 s3
      have h1 : s1.Within _ := h.sameQueue.drainPage e
      have h2 : s2.Within _ := ite (h1.journalAppend e) h1
      exact hpop _ ((h2.resendIfSent _).lostReceived _) rfl

end Store

end State.Within
end Sys2Proof.Machine
end

section
namespace Sys2Proof.Machine
/-- A slot's entry in the directory has no bound. -/
theorem buffer_putSlot (c : Checkpoint) (i : SlotId) (e : SlotEntry) : (c.putSlot i e).buffer = c.buffer := by
  cases i <;> rfl

namespace State.Within

variable {s t : State} {Q : List Entry → Nat → Prop}

section Engines

variable (h : s.Within Q)
include h

/-! ### The array controller -/

theorem startOp (o : ArrayOp) : (s.startOp o).Within Q := ite ((h.setCtl _).setComm _) (h.setCtl _)

theorem nextOp : s.nextOp.Within Q := by
  unfold State.nextOp
  split
  · exact (h.setCtl _).startOp _
  · split
    · exact h.setCtl _
    · split
      · exact (h.setCtl _).startOp _
      · exact h.setCtl _

theorem ask (o : ArrayOp) : (s.ask o).Within Q := by
  unfold State.ask
  split
  · exact h.startOp o
  · exact ite (h.setCtl _) (h.setCtl _)

theorem opEnded : s.opEnded.Within Q := (h.setCtl _).nextOp

theorem opEndedAsking (o : ArrayOp) : (s.opEndedAsking o).Within Q := (h.setCtl _).nextOp

/-! ### The checkpoint engine -/

theorem abandonCheckpoint : s.abandonCheckpoint.Within Q := by
  unfold State.abandonCheckpoint
  extract_lets s1 slot _ _ s2 _
  have h1 : s1.Within Q := h.mapPages _ _
  have h2 : s2.Within Q := h1.setCkpt (Nat.zero_le _)
  exact ((h2.journalEnded).setCtl _).ask _

theorem failCheckpoint (p : Option Nat) (why : Reason) : (s.failCheckpoint p why).Within Q :=
  (h.abandonCheckpoint.raise _ _).placeFrame _

theorem sourceFault : s.sourceFault.Within Q := by
  refine ite ?_ h
  split
  · exact h
  · exact h.failCheckpoint _ _

theorem passUnset : s.passUnset.Within Q := by
  have hm := h.mapPages (fun r => { r with uncaptured := false }) s.uncapturedPages
  exact ite (hm.setCkpt (by exact hm.buffer)) h

theorem nextProgram : s.nextProgram.Within Q := by
  refine ite ?_ h
  split
  · exact (h.setCkpt (by exact h.buffer)).ask _
  · exact ite ((h.setCkpt (by exact h.buffer)).ask _) h

theorem preErase (slot : SlotId) : (s.preErase slot).Within Q :=
  (h.setCkpt (by rw [buffer_putSlot]; exact h.buffer)).ask _

theorem startPreErase : s.startPreErase.Within Q := ite (h.preErase _) h

theorem clearHold : s.clearHold.Within Q := by
  have ht := h.setCkpt (x := { s.ckpt with hold := false }) h.buffer
  exact ite (ite (ht.preErase _) ht.startPreErase) h

theorem openSnapshot (c : Half) : (s.openSnapshot c).Within Q := by
  unfold State.openSnapshot
  extract_lets pages s1 start s2 g s3 slot _ s4
  have h1 : s1.Within Q := h.mapPages _ _
  have h2 : s2.Within Q := h1.journalOpens
  have h3 : s3.Within Q := ite { h2 with } h2
  have h4 : s4.Within Q := h3.setCkpt (Nat.zero_le _)
  exact h4.ask _

/-! ### Capture grants -/

theorem passUnsetBelow (p : Nat) : (s.passUnsetBelow p).Within Q := by
  have hm := h.mapPages (fun r => { r with uncaptured := false })
    (s.uncapturedPages.filter (fun q => decide (q < p) && decide ((s.page q).state = .unset)))
  exact hm.setCkpt (by exact hm.buffer)

theorem raiseCorrected (m : Nat) : (s.raiseCorrected m).Within Q := ite h (h.raise _ _)

/-- A capture grant puts one page into a buffer that has room. -/
theorem captureGrant (ups : List Upset) (hroom : s.ckpt.buffer.length < 8) : (s.captureGrant ups).Within Q := by
  unfold State.captureGrant
  split
  · exact h
  · next p forced _ =>
    extract_lets s1 x s2 r s3 _ s4
    have h1 : s1.Within Q := ite h (h.passUnsetBelow p)
    have h2 : s2.Within Q := (h1.strike ups).scanPage _ _
    have hbuf : s2.ckpt.buffer = s.ckpt.buffer := by
      change (Machine.scanPage _ _ _).1.ckpt.buffer = _
      rw [Machine.scanPage, scanCells_eq_setImage, strike_eq_setImage]
      change (if forced = true then s else s.passUnsetBelow p).ckpt.buffer = _
      rw [State.passUnsetBelow, mapPages_eq]
      split_ifs <;> rfl
    have h4 : s4.Within Q := by
      refine (h2.mapPage _ _).setCkpt ?_
      change (s2.ckpt.buffer ++ [_]).length ≤ 8
      rw [List.length_append, hbuf]
      exact hroom
    exact ite (h4.raiseCorrected _) (h2.handOn _ _)

theorem completeCheckpoint : s.completeCheckpoint.Within Q := by
  unfold State.completeCheckpoint
  extract_lets slot old g _ c1 _ c2 s1 s2
  have hc : c2.buffer = s.ckpt.buffer := by
    change (if _ then Checkpoint.putSlot _ _ _ else _).buffer = _
    split_ifs
    · rw [buffer_putSlot, buffer_putSlot]
    · rw [buffer_putSlot]
  have h1 : s1.Within Q := h.setCkpt (by rw [hc]; exact h.buffer)
  exact (h1.journalCompletes _ _).mapPages _ _

/-! ### The restore engine -/

theorem clearSuspects (p : Nat) : (s.clearSuspects p).Within Q := h.filterSuspects _

theorem beginRestore (p : Nat) : (s.beginRestore p).Within Q := ((h.mapPage _ _).clearSuspects _).lostReceived _

theorem failPageRestore (p : Nat) (slot : Option SlotId) (why : Reason) : (s.failPageRestore p slot why).Within Q :=
  (((h.mapPage _ _).setRest (by exact h.list)).raise _ _).placeFrame _

theorem startPageRestore (p : Nat) : (s.startPageRestore p).Within Q := by
  have hb := h.beginRestore p
  unfold State.startPageRestore
  extract_lets s1
  split
  · exact ite ((hb.setRest (by exact hb.list)).ask _) (hb.failPageRestore _ _ _)
  · exact hb.failPageRestore _ _ _

omit h in
theorem takeRestores (h : s.Within Q) (m : Nat) : (takeRestores m s).Within Q := by
  induction m generalizing s with
  | zero => exact h
  | succ m ih =>
    refine ite h ?_
    split
    · exact h
    · next p _ =>
      have hdrop := h.setRest (x := { s.rest with list := setDrop p s.rest.list })
        ((length_setDrop_le _ _).trans h.list)
      exact ite (ih (hdrop.startPageRestore _)) (ih hdrop)

theorem restoresTake : s.restoresTake.Within Q := h.takeRestores _

omit h in
theorem replayOver (h : s.Within Q) (p : Nat) (rs : List JournalRecord) : (replayOver s p rs).Within Q := by
  induction rs generalizing s with
  | nil => exact h
  | cons r rs ih => exact ite (ih (h.writeRun _ _)) (ih h)

theorem leaveRestored (p : Nat) (st : PageState) : (s.leaveRestored p st).Within Q := h.mapPage _ _

theorem pageRestoreGrant (p : Nat) (slot : SlotId) (g : Option Word) (cells : List Word) :
    (s.pageRestoreGrant p slot g cells).Within Q := by
  have hend := h.setRest (x := { s.rest with op := .none }) h.list
  unfold State.pageRestoreGrant
  split
  · exact h.failPageRestore _ _ _
  · refine ite (h.failPageRestore _ _ _) (ite ((h.setRest (by exact h.list)).ask _) ?_)
    split
    · exact ((hend.writeRun _ _).replayOver _ _).leaveRestored _ _
    · exact (hend.writeRun _ _).leaveRestored _ _
    · exact (hend.writeRun _ _).leaveRestored _ _
    · exact h.failPageRestore _ _ _

theorem endImage (i : ImageRestore) : (s.endImage i).Within Q := by
  unfold State.endImage
  extract_lets _ s1
  have h1 : s1.Within Q := h.setRest (by exact h.list)
  split
  · exact h1
  · exact (h1.raise _ _).placeFrame _

theorem imageGoesOn (i : ImageRestore) : (s.imageGoesOn i).Within Q := by
  unfold State.imageGoesOn
  split
  · exact h.endImage i
  · exact (h.setRest (by exact h.list)).ask _

theorem imageFails (i : ImageRestore) (p : Nat) (why : Reason) : (s.imageFails i p why).Within Q :=
  (h.mapPage _ _).imageGoesOn _

theorem imageRestoreGrant (i : ImageRestore) (cells : List Word) : (s.imageRestoreGrant i cells).Within Q := by
  unfold State.imageRestoreGrant
  split
  · exact h.endImage i
  · next p _ _ =>
    refine ite (h.imageGoesOn _) ?_
    have hw := h.writeRun (cellAddr p 0) cells
    exact ((ite (hw.replayOver _ _) hw).mapPage _ _).imageGoesOn _

/-! ### The transfer engine -/

theorem beginPass : s.beginPass.Within Q := ite (h.endDonation _ _ _ _) (h.setXfer (by exact h.inbound))

theorem passTest : s.passTest.Within Q := ite (ite h.beginPass (h.setXfer (by exact h.inbound))) h

theorem sendFinal : s.sendFinal.Within Q := by
  unfold State.sendFinal
  split
  · exact h
  · exact ite (h.handPartner _).clearTransfer.releaseHold h

theorem abandonClosingPass : s.abandonClosingPass.Within Q :=
  (h.setXfer (x := { s.xfer with resend := setUnion s.xfer.closing s.xfer.resend, closing := [] })
    h.inbound).releaseHold.beginPass

/-- A page that a donor still owes. -/
theorem owes (x : List Nat) : (s.setXfer { s.xfer with resend := x }).Within Q := h.setXfer h.inbound

theorem transferOutGrant (ups : List Upset) : (s.transferOutGrant ups).Within Q := by
  unfold State.transferOutGrant
  split
  · exact h
  · extract_lets closing _ s1 owe x s2 _ s3 s4 s5
    have h1 : s1.Within Q := ite (h.setXfer (by exact h.inbound)) (h.setXfer (by exact h.inbound))
    have hx : x.1.Within Q := (h1.strike ups).scanPage _ _
    have h2 : s2.Within Q := hx.handPartner _
    have h3 : s3.Within Q := h2.setXfer (by exact h2.inbound)
    have h4 : s4.Within Q := (hx.owes _).handOn _ _
    have h5 : s5.Within Q := h1.owes _
    exact ite (ite (h3.raiseCorrected _) (ite h4.abandonClosingPass h4)) (ite h5.abandonClosingPass h5)

theorem transferInGrant (x : InPage) (rest : List InPage) (hrest : rest.length ≤ 4) :
    (s.transferInGrant x rest).Within Q :=
  (((h.writeRun _ _).clearSuspects _).mapPage _ _).setXfer hrest

end Engines
end State.Within
end Sys2Proof.Machine
end

section
/-! The lane within an event: votes, closes, signature passes and join checks keep every bound. -/

namespace Sys2Proof.Machine
namespace State.Within

variable {s t : State} {Q : List Entry → Nat → Prop}

section Agreement

variable (h : s.Within Q)
include h

/-! ### Votes -/

theorem writeDecision (c : Close) (byExpiry : Bool) (brought : Option PortId) (out : VoteOutcome) :
    (s.writeDecision c byExpiry brought out).Within Q := by
  unfold State.writeDecision
  extract_lets one two _ s1 s2 s3
  have h1 : s1.Within Q := h.setLane (by exact h.abstain) (by exact (length_mapLast ..).trans_le h.history)
  have h2 : s2.Within Q := ite (h1.mapPeer _ _) h1
  have h3 : s3.Within Q := ite (h2.mapPeer _ _) h2
  exact ite (h3.mapPeers _) h3

theorem raiseDecision (out : VoteOutcome) (m : Nat) : (s.raiseDecision out m).Within Q := by
  have hsilent := h.raiseTimes .peerSilent FaultKind.peerSilent.weight m
  unfold State.raiseDecision
  extract_lets s1
  split
  · exact (hsilent.raise _ _).placeFrame _
  · exact ite (hsilent.placeFrame _) (ite (hsilent.placeFrame _) hsilent)

theorem decideVote (byExpiry : Bool) (brought : Option PortId) (out : VoteOutcome) :
    (s.decideVote byExpiry brought out).Within Q := by
  unfold State.decideVote
  split
  · exact h
  · extract_lets was silent s1 s2 s3 _ s4
    have h2 : s2.Within Q := (h.writeDecision _ _ _ _).moveLane _
    have h3 : s3.Within Q := h2.raiseDecision _ _
    have h4 : s4.Within Q := ite (h3.setLane (by exact h3.abstain) (by exact h3.history)) h3
    exact (h4.mapPeers _).retireClose

theorem testVote : s.testVote.Within Q := by
  unfold State.testVote
  split
  · exact h
  · exact ite (h.decideVote _ _ _) h

theorem activePeerSeen (brought : Option PortId) : (s.activePeerSeen brought).Within Q :=
  ite (h.decideVote _ _ _) (h.moveLane _)

theorem expireVote : s.expireVote.Within Q := by
  unfold State.expireVote
  split
  · exact h
  · exact h.decideVote _ _ _

/-! ### The steps of a close -/

theorem abstains : s.abstains.Within Q := by
  have hr := h.raise .abstained FaultKind.abstained.weight
  have ha := hr.setLane (x := { (s.raise .abstained FaultKind.abstained.weight).lane with
    abstain := min 7 ((s.raise .abstained FaultKind.abstained.weight).lane.abstain + 1) }) (min_le_left ..) hr.history
  exact ite ha.selfWithdraw ha

theorem recordAndAnnounce (c : Close) (sig : Option Word) (regions : Option (List (Nat × Word))) :
    (s.recordAndAnnounce c sig regions).Within Q := by
  unfold State.recordAndAnnounce
  extract_lets r _ s1 s2 _ s3
  have h1 : s1.Within Q := h.setLane (by exact h.abstain) (length_addHistory_le h.history r)
  have h2 : s2.Within Q := h1.handBoth _
  have h3 : s3.Within Q := h2.setLane (by exact h2.abstain) (by exact h2.history)
  exact ite h3.testVote h1

theorem checkpointStep (c : Close) (completed : Bool) : (s.checkpointStep c completed).Within Q := by
  have ho := h.openSnapshot c.cycle
  exact ite (ho.setLane (by exact ho.abstain) (by exact (length_mapLast ..).trans_le ho.history)) h

theorem closingStep (completed : Bool) : (s.closingStep completed).Within Q := by
  unfold State.closingStep
  split
  · exact h
  · exact ite ((h.setXfer (by exact h.inbound)).setLane (by exact h.abstain) (by exact h.history))
      (ite h.beginPass h).releaseHold

theorem endPass (stop : Option StopCause) (fa : Bool) : (s.endPass stop fa).Within Q := by
  unfold State.endPass
  split
  · exact h
  · extract_lets completed sig regions s1 _ s2
    have h1 : s1.Within Q := by
      cases stop
      · exact h
      · exact h.setSign _
    have h2 : s2.Within Q := ite (ite (h1.setLane (Nat.zero_le _) (by exact h1.history)) h1.abstains) h1
    exact ((h2.recordAndAnnounce _ _ _).checkpointStep _ _).closingStep _

theorem feedPage (c : Half) (st : SignStep) (vs : List Word) : (s.feedPage c st vs).Within Q :=
  ite (h.setSign _) (h.setSign _)

theorem signatureGrant (ups : List Upset) : (s.signatureGrant ups).Within Q := by
  unfold State.signatureGrant
  split
  · extract_lets fa x s1
    have hx : x.1.Within Q := (h.strike ups).scanPage _ _
    have h1 : s1.Within Q := (hx.feedPage _ _ _).raiseCorrected _
    exact ite (ite (ite (h1.endPass _ _) h1) ((hx.handOn _ _).endPass _ _)) (h.endPass _ _)
  · exact h

theorem beginSigning (c : Half) : (s.beginSigning c).Within Q := h.setSign _

theorem beginClosePass : s.beginClosePass.Within Q := by
  unfold State.beginClosePass
  split
  · exact h
  · exact ite (ite ((h.setClose _).beginSigning _ |>.endPass _ _) ((h.setClose _).beginSigning _)) h

/-! ### The check of a JOIN-FINAL -/

theorem joinCompletes (c : Half) : (s.joinCompletes c).Within Q :=
  have hc := h.clearTransfer
  ((hc.setLane (Nat.zero_le _) (by exact hc.history)).breakJournal).moveLane _

theorem finishCheck : s.finishCheck.Within Q := by
  unfold State.finishCheck
  split
  · exact h
  · split
    · exact h.endReception _ _ _
    · exact ite (h.joinCompletes _) (h.endReception _ _ _)

theorem beginCheck : s.beginCheck.Within Q := by
  unfold State.beginCheck
  split
  · exact h
  · refine ite ?_ h
    split
    · exact h.endReception _ _ _
    · have hb := (h.setXfer (x := { s.xfer with checkBegun := true }) h.inbound).beginSigning
      exact ite (hb _).finishCheck (hb _)

theorem stopCheck (why : StopCause) (p : Nat) : (s.stopCheck why p).Within Q :=
  (h.setSign _).endReception _ _ _

theorem joinCheckPage (ups : List Upset) : (s.joinCheckPage ups).Within Q := by
  unfold State.joinCheckPage
  split
  · extract_lets x s1
    have hx : x.1.Within Q := (h.strike ups).scanPage _ _
    have h1 : s1.Within Q := (hx.feedPage _ _ _).raiseCorrected _
    exact ite (ite (ite h1.finishCheck h1) ((hx.handOn _ _).stopCheck _ _)) (h.stopCheck _ _)
  · exact h

/-! ### What an event sets off -/

theorem settle : s.settle.Within Q :=
  ite h.beginClosePass.restoresTake.sourceFault.passUnset.nextProgram.passTest.sendFinal.beginCheck.updateRun.startPreErase
    h

end Agreement
end State.Within
end Sys2Proof.Machine
end

section
/-! The host's requests: reads, exchanges, commissioning and the other handlers keep every bound. -/

namespace Sys2Proof.Machine
/-- One entry more. -/
theorem queueCellCount_append (es : List Entry) (e : Entry) :
    queueCellCount (es ++ [e]) = queueCellCount es + e.values.length := by
  simp [queueCellCount]

/-- A write that is not refused finds room in the queue. -/
theorem room_of_writeRefusal {s : State} {a : WriteArgs} (h : s.writeRefusal a = none) :
    s.queue.entries.length + 1 ≤ 8 ∧ queueCellCount s.queue.entries + a.values.length ≤ 64 := by
  unfold State.writeRefusal at h
  split_ifs at h with _ _ _ _ _ _ _ hfull
  rw [Config.queueEntries, Config.queueCells, not_or] at hfull
  omega

/-- An admitted EXCHANGE asks for one value, and finds room in the queue. -/
theorem room_of_admitExchange {s : State} {r : Request} {a : WriteArgs} (h : s.admitExchange r = .ok a) :
    a.values.length = 1 ∧ roomLeft 1 s.queue.entries 0 := by
  have hone : ∀ b, exchangeArgs r.body = some b → b.values.length = 1 := by
    intro b hb
    unfold exchangeArgs at hb
    split at hb
    · obtain rfl := Option.some.inj hb
      rfl
    · cases hb
  unfold State.admitExchange at h
  split at h
  · cases h
  · next b hb =>
    split at h
    · cases h
    · next hnone =>
      obtain rfl := Except.ok.inj h
      obtain ⟨hlen, hcells⟩ := room_of_writeRefusal hnone
      rw [hone b hb] at hcells
      exact ⟨hone b hb, hlen, hcells⟩

namespace State.Within

variable {s t : State} {Q : List Entry → Nat → Prop} {n : Nat}

/-! ### Answers, jobs and the read cursor -/

section Served

variable (h : s.Within Q)
include h

theorem setLink {l : Link} (hl : l.job = s.link.job) : (s.setLink l).Within Q := by
  refine { h with queue := ?_ }
  have : (s.setLink l).entriesOwed = s.entriesOwed := by unfold State.entriesOwed; rw [State.setLink_link, hl]
  rw [this]
  exact h.queue

theorem answer (k : ReqKind) (tag : Byte) (st : Status) (b : ReplyBody) : (s.answer k tag st b).Within Q := h.setLink rfl

theorem refuse (k : ReqKind) (tag : Byte) (st : Status) : (s.refuse k tag st).Within Q := h.answer k tag st .empty

theorem setCursor (c : Option Cursor) : (s.setCursor c).Within Q := h.setLink rfl

theorem invalidConfig (k : ReqKind) (tag : Byte) (f : Failing) : (s.invalidConfig k tag f).Within Q := h.answer ..

theorem countHost : s.countHost.Within Q := h.setHostGrants _

theorem countNonHost : s.countNonHost.Within Q := h.setHostGrants _

/-! ### The service of a read -/

theorem readFinding (a : Nat) (r : ReadRun) : (s.readFinding a r).1.Within Q := by
  unfold State.readFinding
  extract_lets p o s1 s2 s3
  have h1 : s1.Within Q := ((h.offerSuspect _ _).makeSuspect _).raise _ _
  have h2 : s2.Within Q := ite (h1.raise _ _) h1
  exact ite (h2.offerRestore _) h2

theorem serveCell (a : Nat) (r : ReadRun) : (s.serveCell a r).1.Within Q := by
  unfold State.serveCell
  extract_lets p _ r1
  split
  · exact h
  · split_ifs
    · exact h
    · split
      · exact h
      · exact h.setImage _
      · exact h.readFinding _ _

omit h in
theorem serveCells (h : s.Within Q) (cells : List Nat) (r : ReadRun) : (serveCells cells (s, r)).1.Within Q := by
  induction cells generalizing s r with
  | nil => exact h
  | cons a cells ih => exact ih (h.serveCell a r) _

theorem readFaults (k : ReqKind) (c : Half) (r : ReadRun) : (s.readFaults k c r).Within Q := by
  unfold State.readFaults
  extract_lets s1
  have h1 : s1.Within Q := h.raiseCorrected _
  split
  · exact h1
  · exact h1.placeFrame _

end Served

/-- A job that owes no more than the one before it leaves the room that the two make up. -/
theorem setJob {m : Nat} {j : Option Job} (h : s.Within (roomLeft n))
    (hj : (s.setJob j).entriesOwed + m ≤ s.entriesOwed + n) : (s.setJob j).Within (roomLeft m) := by
  obtain ⟨he, hc⟩ := h.queue
  have hq : roomLeft m s.queue.entries (s.setJob j).entriesOwed := ⟨by omega, by omega⟩
  exact { h with queue := hq }

/-- A job that owes nothing keeps the room. -/
theorem setFreeJob {j : Option Job} (h : s.Within (roomLeft n)) (hj : (s.setJob j).entriesOwed = 0) :
    (s.setJob j).Within (roomLeft n) := h.setJob (by omega)

theorem postEntry {a : WriteArgs} (h : s.Within Q) (hlen : s.queue.entries.length + s.entriesOwed + 1 ≤ 8)
    (hcells : queueCellCount s.queue.entries + s.entriesOwed + a.values.length ≤ 64) :
    (s.postEntry a).Within (roomLeft 0) := by
  have hq : roomLeft 0 (s.queue.entries ++
      [{ page := a.page, offset := a.offset, values := a.values, age := 0, closing := false }]) s.entriesOwed := by
    refine ⟨?_, ?_⟩
    · rw [List.length_append, List.length_singleton]; omega
    · rw [queueCellCount_append]; dsimp only; omega
  exact { h with queue := hq }

/-- What is owed after whatever keeps every `Q`. -/
theorem owed_eq (h : t.Within (fun es o => es = s.queue.entries ∧ o = s.entriesOwed)) : t.entriesOwed = s.entriesOwed :=
  h.queue.2

theorem serveRead (h : s.Within (roomLeft n)) (tag : Byte) (k : ReqKind) (start count wrap : Nat) (c : Half)
    (ups : List Upset) : (s.serveRead tag k start count wrap c ups).Within (roomLeft n) := by
  have hj := (h.countHost.strike ups).setFreeJob (j := none) rfl
  exact (((hj.serveCells _ _).readFaults _ _ _).setCursor _).answer _ _ _ _

/-- An EXCHANGE that reads the store posts the entry that was owed, or that its checks found room for. -/
theorem serveExchange (h : s.Within (roomLeft n)) (hn : 1 ≤ s.entriesOwed + n) (tag : Byte) {a : WriteArgs}
    (ha : a.values.length = 1) (c : Half) (ups : List Upset) : (s.serveExchange tag a c ups).Within (roomLeft 0) := by
  have howed : (s.countHost.strike ups).entriesOwed = s.entriesOwed :=
    owed_eq (h.sameQueue.countHost.strike ups)
  have hj : ((s.countHost.strike ups).setJob none).Within (roomLeft 1) :=
    (h.countHost.strike ups).setJob
      (by rw [howed]; exact hn)
  have hserved := (hj.serveCell (cellAddr a.page a.offset) ReadRun.empty).readFaults .exchange c
    (((s.countHost.strike ups).setJob none).serveCell (cellAddr a.page a.offset) ReadRun.empty).2
  obtain ⟨hlen, hcells⟩ := hserved.queue
  exact (hserved.postEntry hlen (by rw [ha]; exact hcells)).answer _ _ _ _

theorem serveDeferred (h : s.Within (roomLeft 0)) : s.serveDeferred.Within (roomLeft 0) := by
  unfold State.serveDeferred
  split
  · exact ite (h.eventOver.serveRead _ _ _ _ _ _ _) h
  · next hj =>
    have howed : s.eventOver.entriesOwed = 1 :=
      (owed_eq h.sameQueue.eventOver).trans (by simp only [State.entriesOwed, hj])
    exact ite (h.eventOver.serveExchange (by omega) _ rfl _ _) h
  · exact h

theorem heldExchange (h : s.Within (roomLeft 0)) (ups : List Upset) : (s.heldExchange ups).Within (roomLeft 0) := by
  unfold State.heldExchange
  split
  · next hj => exact h.serveExchange (by simp only [State.entriesOwed, hj, Nat.le_refl]) _ rfl _ _
  · exact h

/-! ### READ, WRITE, EXCHANGE and FILL -/

theorem startRead (h : s.Within (roomLeft 0)) (tag : Byte) (k : ReqKind) (a : ReadAsk) (ups : List Upset) :
    (s.startRead tag k a ups).Within (roomLeft 0) := ite (h.serveRead _ _ _ _ _ _ _) (h.setFreeJob rfl)

theorem onRead (h : s.Within (roomLeft 0)) (r : Request) (ups : List Upset) : (s.onRead r ups).Within (roomLeft 0) := by
  unfold State.onRead
  split
  · exact h.refuse _ _ _
  · exact h.startRead _ _ _ _

theorem onReadOn (h : s.Within (roomLeft 0)) (r : Request) (ups : List Upset) :
    (s.onReadOn r ups).Within (roomLeft 0) := by
  unfold State.onReadOn
  split
  · exact h.refuse _ _ _
  · exact h.startRead _ _ _ _

theorem onWrite (h : s.Within (roomLeft 0)) (hj : s.link.job = none) (r : Request) :
    (s.onWrite r).Within (roomLeft 0) := by
  have hc := h.setCursor none
  have howed : (s.setCursor none).entriesOwed = 0 := by simp only [State.entriesOwed, State.setCursor, State.setLink_link, hj]
  unfold State.onWrite
  extract_lets s1
  split
  · exact hc.refuse _ _ _
  · split
    · exact hc.refuse _ _ _
    · next hnone =>
      obtain ⟨hlen, hcells⟩ := room_of_writeRefusal hnone
      exact (hc.postEntry (by rw [howed]; exact hlen) (by rw [howed]; exact hcells)).refuse _ _ _

theorem onExchange (h : s.Within (roomLeft 0)) (hj : s.link.job = none) (r : Request) (ups : List Upset) :
    (s.onExchange r ups).Within (roomLeft 0) := by
  have hc := h.setCursor none
  have howed : (s.setCursor none).entriesOwed = 0 := by simp only [State.entriesOwed, State.setCursor, State.setLink_link, hj]
  unfold State.onExchange
  extract_lets s1
  split
  · exact hc.refuse _ _ _
  · next a hadm =>
    obtain ⟨ha, hroom⟩ := room_of_admitExchange hadm
    have h1 : s1.Within (roomLeft 1) := { hc with queue := howed.symm ▸ hroom }
    split
    · exact (h1.postEntry h1.queue.1 (by rw [ha]; exact h1.queue.2)).answer _ _ _ _
    · have hwait : ∀ held, (s1.setJob (some (s1.exchangeJob r.tag a held ups))).Within (roomLeft 0) :=
        fun held => h1.setJob (Nat.le_add_left ..)
      exact ite (hwait true) (ite (h1.serveExchange (Nat.le_add_left ..) _ ha _ _) (hwait false))

theorem onFill (h : s.Within (roomLeft 0)) (r : Request) : (s.onFill r).Within (roomLeft 0) := by
  have hc := h.setCursor none
  unfold State.onFill
  extract_lets s1
  split
  · exact hc.refuse _ _ _
  · refine ite (hc.refuse _ _ _) (ite (hc.refuse _ _ _) ?_)
    split
    · exact hc.refuse _ _ _
    · exact ite (hc.refuse _ _ _) (ite (hc.refuse _ _ _) (ite (hc.refuse _ _ _) (hc.setFreeJob rfl)))

theorem fillGrant (h : s.Within (roomLeft 0)) (tag : Byte) (v : Word) (pages : List Nat) (p : Nat) (rest : List Nat) :
    (s.fillGrant tag v pages p rest).Within (roomLeft 0) := by
  unfold State.fillGrant
  extract_lets s1 s2 s3 s4
  have h3 : s3.Within (roomLeft 0) := ((h.writeRun _ _).clearSuspects _).mapPage _ _
  have h4 : s4.Within (roomLeft 0) := ite h3.breakJournal h3
  exact ite ((h4.setFreeJob rfl).answer _ _ _ _) (h4.setFreeJob rfl)

theorem fillNext (h : s.Within (roomLeft 0)) : s.fillNext.Within (roomLeft 0) := by
  unfold State.fillNext
  split
  · exact h.countHost.fillGrant _ _ _ _ _
  · exact h

end State.Within
end Sys2Proof.Machine
end

section
/-! The other requests, and every command: each keeps the bounds of 1.7. -/

namespace Sys2Proof.Machine

/-- A late announcement changes one record of the history. -/
theorem length_noteLate {p : PortId} {a : Announcement} {l m : List CycleRecord} (h : noteLate p a l = some m) :
    m.length = l.length := by
  induction l generalizing m with
  | nil => cases h
  | cons r l ih =>
    unfold noteLate at h
    split_ifs at h
    · obtain rfl := Option.some.inj h
      rfl
    · split at h
      · cases h
      · next l' hl' =>
        obtain rfl := Option.some.inj h
        rw [List.length_cons, List.length_cons, ih hl']

/-- A CLOSE marks the entries of the queue and keeps their cells. -/
theorem queueCellCount_map {f : Entry → Entry} (hf : ∀ e, (f e).values = e.values) (es : List Entry) :
    queueCellCount (es.map f) = queueCellCount es := by
  simp [queueCellCount, Function.comp_def, hf]

theorem ageOldest_counts (t : Nat) (es : List Entry) :
    (ageOldest t es).length = es.length ∧ queueCellCount (ageOldest t es) = queueCellCount es := by
  induction es with
  | nil => exact ⟨rfl, rfl⟩
  | cons e es ih =>
    obtain ⟨hl, hc⟩ := ih
    rw [ageOldest]
    split_ifs
    · exact ⟨rfl, rfl⟩
    · refine ⟨by rw [List.length_cons, List.length_cons, hl], ?_⟩
      unfold queueCellCount at hc ⊢
      rw [List.map_cons, List.map_cons, List.sum_cons, List.sum_cons, hc]

namespace State.Within

variable {s t : State} {Q : List Entry → Nat → Prop}

section Requests

variable (h : s.Within Q)
include h

/-! ### The commissioning unit -/

theorem setPhase (x : PartPhase) : (s.setPhase x).Within Q := { h with }
theorem setLrst (x : Bool) : (s.setLrst x).Within Q := { h with }
theorem setPins (x : Pins) : (s.setPins x).Within Q := { h with }
theorem setPending (x : List Instr) : (s.setPending x).Within Q := { h with }
theorem setPressure {x : Pressure} (hx : x.p ≤ 1023) : (s.setPressure x).Within Q := { h with p := hx }

theorem dropUnmapped : s.dropUnmapped.Within Q := by
  unfold State.dropUnmapped
  extract_lets s1 s2 op
  have h2 : s2.Within Q := (h.setPages _).filterSuspects _
  exact h2.setRest ((List.length_filter_le ..).trans h2.list)

theorem freshPeers : s.freshPeers.Within Q := h.setLane (by exact h.abstain) (by exact h.history)

theorem putInUse (x : CommRecord) : (s.putInUse x).Within Q := by
  unfold State.putInUse
  extract_lets s1 _ s2 s3 s4 s5 s6
  have h1 : s1.Within Q := ite h.abandonCheckpoint h
  have h3 : s3.Within Q := (h1.setComm _).dropUnmapped
  exact ((h3.setPatrol _).breakJournal.freshPeers.setFaults _).moveLane _

theorem onApply (r : Request) : (s.onApply r).Within Q := by
  refine ite (h.refuse _ _ _) (ite (h.refuse _ _ _) ?_)
  split
  · exact h.invalidConfig _ _ _
  · exact (h.putInUse _).refuse _ _ _

theorem onConfigure (r : Request) : (s.onConfigure r).Within Q :=
  ite (h.refuse _ _ _) (ite (h.refuse _ _ _) (((ite (h.endReception _ _ _) h).moveLane _).refuse _ _ _))

/-! ### Close, lane state, cycle history -/

omit h in
theorem acceptClose {n : Nat} (h : s.Within (roomLeft n)) (c : Half) (wc : Bool) :
    (s.acceptClose c wc).Within (roomLeft n) := by
  unfold State.acceptClose
  extract_lets _ s1 _ s2
  have h2 : s2.Within (roomLeft n) := by
    obtain ⟨hlen, hcells⟩ := h.queue
    have hq : roomLeft n (s.queue.entries.map (fun e => { e with closing := true })) s.entriesOwed :=
      ⟨by rwa [List.length_map], by rwa [queueCellCount_map (f := fun e => { e with closing := true }) (fun _ => rfl)]⟩
    exact { h with queue := hq }
  exact (h2.setClose _).clearHold

theorem onCycleRecord (r : Request) : (s.onCycleRecord r).Within Q := by
  unfold State.onCycleRecord
  split
  · exact h.refuse _ _ _
  · split
    · exact h.refuse _ _ _
    · exact h.answer _ _ _ _

theorem hostAborts : s.hostAborts.Within Q := h.endReception _ _ _

theorem onWithdraw (r : Request) : (s.onWithdraw r).Within Q :=
  ite ((h.moveLane _).refuse _ _ _)
    (ite (h.hostAborts.refuse _ _ _) (ite (h.hostAborts.refuse _ _ _) (h.refuse _ _ _)))

theorem onRestart (r : Request) : (s.onRestart r).Within Q := by
  unfold State.onRestart
  split
  · exact (h.moveLane _).refuse _ _ _
  · exact (h.moveLane _).refuse _ _ _
  · exact ((ite h.hostAborts h).moveLane _).refuse _ _ _
  · exact h.hostAborts.refuse _ _ _
  · exact h.refuse _ _ _
  · exact h.refuse _ _ _
  · exact h.refuse _ _ _

/-! ### Checkpoints, restores, joins -/

theorem onCancel (r : Request) : (s.onCancel r).Within Q := ite (h.abandonCheckpoint.refuse _ _ _) (h.refuse _ _ _)

/-- A page goes to the restore list only where the list has room (R111). -/
theorem onRestorePage (r : Request) : (s.onRestorePage r).Within Q := by
  unfold State.onRestorePage
  split
  · exact h.refuse _ _ _
  · split
    · exact h.refuse _ _ _
    · split_ifs with hin hfull
      · exact h.refuse _ _ _
      · exact h.refuse _ _ _
      · refine (h.setRest ?_).refuse _ _ _
        rw [Config.restoreListPages] at hfull
        rw [List.length_append, List.length_singleton]
        omega

omit h in
theorem beginRestores (h : s.Within Q) (ps : List Nat) : (beginRestores ps s).Within Q := by
  induction ps generalizing s with
  | nil => exact h
  | cons p ps ih => exact ih (h.beginRestore p)

theorem onRestoreImage (r : Request) : (s.onRestoreImage r).Within Q := by
  refine ite (h.refuse _ _ _) ?_
  split
  · exact h.refuse _ _ _
  · next slot _ =>
    have hb := h.beginRestores (s.imagePlan slot).todo
    refine ite (h.refuse _ _ _) (((hb.setRest ?_).imageGoesOn _).answer _ _ _ _)
    exact (List.length_filter_le ..).trans hb.list

theorem onJoin (r : Request) : (s.onJoin r).Within Q := by
  unfold State.onJoin
  split
  · exact h.refuse _ _ _
  · split
    · exact h.refuse _ _ _
    · exact (((h.setXfer (by exact h.inbound)).mapPeer _ _).hand _ _).refuse _ _ _

/-! ### Fault store requests -/

theorem onReleaseFault (r : Request) : (s.onReleaseFault r).Within Q := by
  unfold State.onReleaseFault
  split
  · exact h.refuse _ _ _
  · exact (h.setFaults _).refuse _ _ _

theorem onSetAlertMask (r : Request) : (s.onSetAlertMask r).Within Q := by
  unfold State.onSetAlertMask
  split
  · exact h.refuse _ _ _
  · exact (h.setFaults _).refuse _ _ _

end Requests

/-! ### Requests that may wait -/

section Waiting

variable (h : s.Within (roomLeft 0))
include h

theorem onClose (r : Request) : (s.onClose r).Within (roomLeft 0) := by
  unfold State.onClose
  split
  · exact h.refuse _ _ _
  · split
    · exact h.refuse _ _ _
    · exact (h.acceptClose _ _).refuse _ _ _

theorem onEnter (r : Request) : (s.onEnter r).Within (roomLeft 0) := by
  refine ite (h.refuse _ _ _) (ite (h.refuse _ _ _) (ite (h.refuse _ _ _) (ite (h.refuse _ _ _) ?_)))
  split
  · exact h.answer _ _ _ _
  · split
    · exact h.answer _ _ _ _
    · have hq := h.setLane (x := { s.lane with query := some false }) h.abstain h.history
      exact (hq.setFreeJob rfl).handBoth _

theorem onWriteCommissioning (r : Request) : (s.onWriteCommissioning r).Within (roomLeft 0) := by
  refine ite (h.refuse _ _ _) (ite (h.refuse _ _ _) ?_)
  split
  · exact h.refuse _ _ _
  · exact (h.setFreeJob rfl).ask _

theorem onLock (r : Request) : (s.onLock r).Within (roomLeft 0) := by
  refine ite (h.refuse _ _ _) (ite (h.refuse _ _ _) ?_)
  split
  · exact h.invalidConfig _ _ _
  · exact (h.setFreeJob rfl).ask _

/-- A request reaches its handler where no other waits, so that nothing is owed then. -/
theorem dispatch (hj : s.link.job = none) (k : ReqKind) (r : Request) (ups : List Upset) :
    (s.dispatch k r ups).Within (roomLeft 0) := by
  cases k with
  | read => exact h.onRead r ups
  | readOn => exact h.onReadOn r ups
  | write => exact h.onWrite hj r
  | exchange => exact h.onExchange hj r ups
  | fill => exact h.onFill r
  | close => exact h.onClose r
  | cycleRecord => exact h.onCycleRecord r
  | enter => exact h.onEnter r
  | withdraw => exact h.onWithdraw r
  | restart => exact h.onRestart r
  | cancelCheckpoint => exact h.onCancel r
  | checkpointStatus => exact h.answer _ _ _ _
  | restorePage => exact h.onRestorePage r
  | restoreImage => exact h.onRestoreImage r
  | join => exact h.onJoin r
  | faultFrame => exact h.answer _ _ _ _
  | releaseFault => exact h.onReleaseFault r
  | faultSets => exact h.answer _ _ _ _
  | clearAccrued => exact (h.setFaults _).refuse _ _ _
  | setAlertMask => exact h.onSetAlertMask r
  | status => exact h.answer _ _ _ _
  | readCommissioning => exact h.answer _ _ _ _
  | writeCommissioning => exact h.onWriteCommissioning r
  | lockCommissioning => exact h.onLock r
  | apply => exact h.onApply r
  | configure => exact h.onConfigure r

theorem handleByte (hj : s.link.job = none) (kind : Byte) (r : Request) (ups : List Upset) :
    (s.handleByte kind r ups).Within (roomLeft 0) := by
  unfold State.handleByte
  split
  · unfold State.handleRequest
    split
    · exact h.refuse _ _ _
    · exact h.dispatch hj _ _ _
  · exact h.setLink rfl

theorem takeByte (kind : Byte) (r : Request) (ups : List Upset) : (s.takeByte kind r ups).Within (roomLeft 0) := by
  refine ite h ?_
  split
  · next hj => exact (h.setLink (l := { s.link with phase := .working, live := true }) rfl).handleByte hj _ _ _
  · split
    · exact h.setLink (by rfl)
    · exact h.setLink (by rfl)

theorem takeSecond : s.takeSecond.Within (roomLeft 0) := by
  unfold State.takeSecond
  split
  · next hj _ => exact handleByte (h.setLink (l := { s.link with
      answer := none, second := none, live := s.link.secondLive, secondLive := false }) rfl) hj _ _ _
  · exact h

/-! ### Whole events -/

theorem afterwards : s.afterwards.Within (roomLeft 0) := by
  unfold State.afterwards
  extract_lets s1
  have h1 : s1.Within (roomLeft 0) := by
    change State.Within (match s.link.job with | some _ => _ | none => _) _
    split
    · exact h.serveDeferred.settle
    · exact h
  split
  · exact h1.frameOwed.takeSecond.settle
  · exact h1

omit h in
/-- An event keeps the bounds if what it begins with does. -/
theorem event {f : State → State} (hf : (f s).Within (roomLeft 0)) : (s.event f).Within (roomLeft 0) :=
  hf.settle.afterwards.closeEvent

end Waiting
/-! ### Frames taken from a peer -/

section Frames

variable (h : s.Within Q)
include h

theorem setTaking (p : PortId) (b : Bool) : (s.setTaking p b).Within Q := h.setPorts _

theorem answerDamaged (code : Byte) (f : RxFrame) : (s.answerDamaged code f).Within Q := by
  unfold State.answerDamaged
  split
  · exact h
  · exact ite ((h.setXfer (by exact h.inbound)).handPartner _) h

theorem discardFrame (m : Nat) (code : Byte) (f : RxFrame) : (s.discardFrame m code f).Within Q := by
  unfold State.discardFrame
  split
  · exact h
  · exact (h.answerDamaged _ _).raise _ _
  · exact h.raise _ _
  · exact (h.raise _ _).placeFrame _

theorem watchQuery (st : Option LaneState) : (s.watchQuery st).Within Q :=
  ite (h.setLane (by exact h.abstain) (by exact h.history)) h

theorem sortAnnouncement (p : PortId) (a : Announcement) : (s.sortAnnouncement p a).Within Q := by
  refine ite h (ite (h.mapPeer _ _) (ite (h.mapPeer _ _) ?_))
  split
  · next l hl =>
    refine (h.setLane (by exact h.abstain) ?_).raise _ _
    rw [List.length_reverse, length_noteLate hl, List.length_reverse]
    exact h.history
  · exact (h.raise _ _).placeFrame _

theorem peerGave (p : PortId) (byState : Bool) (st : Option LaneState) : (s.peerGave p byState st).Within Q := by
  unfold State.peerGave
  extract_lets s1
  have h1 : s1.Within Q := ite (h.activePeerSeen _) h.testVote
  exact ite (h1.endReception _ _ _) h1

theorem takeAnnounce (f : RxFrame) : (s.takeAnnounce f).Within Q := by
  unfold State.takeAnnounce
  split
  · exact h
  · exact (((h.mapPeer _ _).watchQuery _).sortAnnouncement _ _).peerGave _ _ _

theorem receiverGave (p : PortId) (st : Option LaneState) : (s.receiverGave p st).Within Q :=
  ite (ite (h.setXfer (by exact h.inbound)) (ite (h.endDonation _ _ _ _) h)) h

theorem takeState (f : RxFrame) : (s.takeState f).Within Q := by
  unfold State.takeState
  split
  · exact h
  · exact (((h.mapPeer _ _).watchQuery _).peerGave _ _ _).receiverGave _ _

theorem takeJoinAsk (f : RxFrame) : (s.takeJoinAsk f).Within Q :=
  ite (h.hand _ _) (ite (h.hand _ _) (ite (h.hand _ _)
    (((h.setXfer (Nat.zero_le _)).mapPeer _ _).hand _ _)))

theorem takeJoinGrant (f : RxFrame) : (s.takeJoinGrant f).Within Q :=
  ite (ite (h.endReception _ _ _) (ite (h.endReception _ _ _) ((h.setXfer (by exact h.inbound)).moveLane _))) h

theorem takeJoinRefuse (f : RxFrame) : (s.takeJoinRefuse f).Within Q := ite (h.endReception _ _ _) h

/-- A PAGE goes to the inbound list only where the list has room (R132). -/
theorem takePage (f : RxFrame) : (s.takePage f).Within Q := by
  unfold State.takePage
  split
  · exact h
  · split_ifs with _ _ hfull
    · exact h.endReception _ _ _
    · exact h.handPartner _
    · refine h.setXfer ?_
      rw [Config.inboundFrames] at hfull
      rw [List.length_append, List.length_singleton]
      omega
    · exact h

theorem takePageAgain (f : RxFrame) : (s.takePageAgain f).Within Q := by
  unfold State.takePageAgain
  extract_lets p m _ s1
  have h1 : s1.Within Q := h.setXfer (by exact h.inbound)
  exact ite (ite (h1.endDonation _ _ _ _)
    (ite (h1.setXfer (by exact h1.inbound)) (h1.setXfer (by exact h1.inbound)))) h

theorem takeJoinFinal (f : RxFrame) : (s.takeJoinFinal f).Within Q := ite (h.setXfer (by exact h.inbound)) h

theorem takeJoinAbort (f : RxFrame) : (s.takeJoinAbort f).Within Q := by
  refine ite ?_ h
  split
  · exact h.endReception _ _ _
  · exact h.endDonation _ _ _ _
  · exact h

theorem brokenFrame (p : PortId) (taking : Bool) : (s.brokenFrame p taking).Within Q := by
  unfold State.brokenFrame
  extract_lets s1
  split
  · exact h.setTaking _ _
  · exact (h.setTaking _ _).raise _ _

/-- A frame that a port has received, if taking it keeps the bounds. -/
theorem receive (code : Byte) (f : RxFrame) {take : State → State}
    (ht : ∀ {u : State}, u.Within Q → (take u).Within Q) : (s.receive code f take).Within Q := by
  unfold State.receive
  extract_lets s1
  split
  · exact h.setTaking _ _
  · exact ite (ht (h.setTaking _ _)) ((h.setTaking _ _).discardFrame _ _ _)

/-! ### The ends of programs and erases, and start-up -/

omit h in
theorem endWriteJob {n : Nat} (h : s.Within (roomLeft n)) (fault : Bool) : (s.endWriteJob fault).Within (roomLeft n) := by
  unfold State.endWriteJob
  split
  · exact ite ((h.setFreeJob rfl).invalidConfig _ _ _) ((h.setFreeJob rfl).refuse _ _ _)
  · exact h

omit h in
theorem eraseDone {n : Nat} (h : s.Within (roomLeft n)) (left : Option CommLeft) :
    (s.eraseDone left).Within (roomLeft n) := by
  unfold State.eraseDone
  extract_lets l _ s1
  have h1 : s1.Within (roomLeft n) := h.setArray _
  refine ite ?_ ((h1.setComm _).opEnded.endWriteJob _)
  split
  · exact h1.opEndedAsking _
  · exact h1.opEnded

omit h in
theorem programDone {n : Nat} (h : s.Within (roomLeft n)) (r : CommRecord) (left : Option RecordPlace) :
    (s.programDone r left).Within (roomLeft n) := ((h.setArray _).setComm _).opEnded.endWriteJob _

omit h in
theorem lockDone {n : Nat} (h : s.Within (roomLeft n)) (left : Option (Field Unit)) :
    (s.lockDone left).Within (roomLeft n) := by
  unfold State.lockDone
  extract_lets x _ s1 _ s2 s3 s4
  have h1 : s1.Within (roomLeft n) := h.setArray _
  have h3 : s3.Within (roomLeft n) := (ite h1 (h1.setComm _)).opEnded
  split
  · exact ite ((h3.setFreeJob rfl).invalidConfig _ _ _) ((h3.setFreeJob rfl).refuse _ _ _)
  · exact h3

theorem beginFieldsDone (slot : SlotId) (f : BeginFields) (left : Option (Field BeginFields)) :
    (s.beginFieldsDone slot f left).Within Q := by
  have ho := (h.setArray (s.array.putSlot slot { s.array.slot slot with
    begins := (programField (s.array.slot slot).begins f left).1 })).opEnded
  exact ite (ite (ho.failCheckpoint _ _) (ho.setCkpt (by exact ho.buffer))) ho

theorem pageProgramDone (slot : SlotId) (p : Nat) (cells : List Word) (left : Option Place) :
    (s.pageProgramDone slot p cells left).Within Q := by
  have ho := (h.setArray (s.array.putSlot slot ((s.array.slot slot).putPlace p
    (programPlace ((s.array.slot slot).place p) p cells left).1))).opEnded
  exact ite (ite (ho.failCheckpoint _ _)
    (ho.setCkpt (by exact List.length_tail.trans_le ((Nat.sub_le ..).trans ho.buffer)))) ho

theorem completionDone (slot : SlotId) (left : Option (Field Unit)) : (s.completionDone slot left).Within Q := by
  have ho := (h.setArray (s.array.putSlot slot { s.array.slot slot with
    completion := (programField (s.array.slot slot).completion () left).1 })).opEnded
  exact ite (ite (ho.failCheckpoint _ _) ho.completeCheckpoint) ho

theorem abandonDone (slot : SlotId) (left : Option (Field Unit)) : (s.abandonDone slot left).Within Q := by
  have ho := (h.setArray (s.array.putSlot slot { s.array.slot slot with
    abandon := (programField (s.array.slot slot).abandon () left).1 })).opEnded
  exact ite (ho.ask _) ho

/-- The engine goes IDLE or on with its erase, whatever becomes of the slot's entry. -/
theorem setSlot (slot : SlotId) (e : SlotEntry) {c : Checkpoint} (hc : c.buffer = (s.ckpt.putSlot slot e).buffer) :
    (s.setCkpt c).Within Q := h.setCkpt (by rw [hc, buffer_putSlot]; exact h.buffer)

theorem eraseFails (slot : SlotId) : (s.eraseFails slot).Within Q :=
  ((h.setSlot slot SlotEntry.unknown (by rfl)).raise _ _).placeFrame _

theorem sectorDone (slot : SlotId) (m : Nat) (left : Option SectorLeft) : (s.sectorDone slot m left).Within Q := by
  have ho := (h.setArray (s.array.putSlot slot (eraseSlotSector (s.array.slot slot) m left).1)).opEnded
  exact ite ho (ite (ho.eraseFails _) (ite ((ho.setCkpt (by exact ho.buffer)).ask _)
    (ho.setSlot slot { SlotEntry.unknown with state := .erased } (by rfl))))

theorem completeStartUp (lost : List ArrayArea) : (s.completeStartUp lost).Within Q := by
  unfold State.completeStartUp
  extract_lets s1 s2 _ s3 s4 _ s5 _ s6 _ s7 _ s8
  have h4 : s4.Within Q := (((h.setArray _).setComm _).setCkpt (by exact h.buffer)).setCtl _
  have h5 : s5.Within Q := h4.setFaults _
  have h6 : s6.Within Q := (h5.setLane (by exact h5.abstain) (by exact h5.history)).freshPeers
  have h7 : s7.Within Q := h6.setPatrol _
  have h8 : s8.Within Q := h7.setPressure (by exact h7.p)
  exact (h8.setPhase _).handBoth _

/-! ### Restores, the patrol and the decay -/

theorem losePlace (slot : SlotId) (p : Nat) (lost : Bool) : (s.losePlace slot p lost).Within Q := by
  unfold State.losePlace
  split
  · exact h.setArray _
  · exact h

theorem pageReadDone (slot : SlotId) (p : Nat) (lost : Bool) : (s.pageReadDone slot p lost).Within Q := by
  have ho := (h.losePlace slot p lost).opEnded
  unfold State.pageReadDone
  extract_lets s1
  split
  · refine ite ?_ ho
    split
    · exact ho.setRest (by exact ho.list)
    · exact ho.failPageRestore _ _ _
  · exact ho

theorem imageReadDone (slot : SlotId) (p : Nat) (lost : Bool) : (s.imageReadDone slot p lost).Within Q := by
  have ho := (h.losePlace slot p lost).opEnded
  unfold State.imageReadDone
  extract_lets s1
  split
  · split
    · refine ite (ite (ho.imageGoesOn _) ?_) ho
      split
      · exact ho.setRest (by exact ho.list)
      · exact ho.imageFails _ _ _
    · exact ho
  · exact ho

theorem pageWriteNext : s.pageWriteNext.Within Q := by
  unfold State.pageWriteNext
  split
  · exact h.countNonHost.pageRestoreGrant _ _ _ _
  · exact h

theorem imageWriteNext : s.imageWriteNext.Within Q := by
  unfold State.imageWriteNext
  split
  · split
    · exact h.countNonHost.imageRestoreGrant _ _
    · exact h
  · exact h

theorem transferInNext : s.transferInNext.Within Q := by
  have hin := h.inbound
  unfold State.transferInNext
  split
  · exact h
  · next x rest hx =>
    rw [hx, List.length_cons] at hin
    exact h.countNonHost.transferInGrant x rest (by omega)

theorem countRound (passed : Bool) : (s.countRound passed).Within Q := ite (h.setPatrol _) h

theorem advanceCursor (p : Nat) : (s.advanceCursor p).Within Q := by
  unfold State.advanceCursor
  split
  · exact h.setPatrol _
  · exact (h.setPatrol _).countRound _

theorem visitGrant (ups : List Upset) : (s.visitGrant ups).Within Q := by
  unfold State.visitGrant
  split
  · exact h.setPatrol _
  · split
    · exact h.setPatrol _
    · next p passed _ =>
      have hscan := ((h.countRound passed).strike ups).scanPage ((s.countRound passed).strike ups).listed p
      exact ((hscan.handOn _ _).advanceCursor _).setPatrol _

theorem decay : s.decay.Within Q := by
  have hp := h.setPressure (x := { p := pressureDecayed s.pressure.p, timer := some s.decayPeriod })
    ((Nat.sub_le ..).trans h.p)
  exact ite hp (hp.setPatrol _)

end Frames

end State.Within
end Sys2Proof.Machine
end

section
/-! Every command keeps the bounds of 1.7. -/

namespace Sys2Proof.Machine

/-- A part without power, or in reset, holds nothing that has a bound. -/
theorem within_unpowered (s : State) : s.unpowered.Within (roomLeft 0) :=
  ⟨Nat.zero_le _, Nat.zero_le _, ⟨Nat.zero_le _, Nat.zero_le _⟩, Nat.zero_le _, List.nodup_nil, Nat.zero_le _,
    Nat.zero_le _, Nat.zero_le _, Nat.zero_le _, Nat.zero_le _⟩

/-- A capture is granted only where the buffer has room (R101, R104). -/
theorem room_of_pick_capture {s : State} (h : s.pick = some .capture) : s.ckpt.buffer.length < 8 := by
  have hn : s.pickNonHost = some .capture := by
    have hhost : s.pickHost ≠ some .capture := by
      unfold State.pickHost
      split_ifs <;> simp
    unfold State.pick at h
    split at h
    · next g hg =>
      split_ifs at h
      · exact absurd (hg.trans h) hhost
      · exact h
    · exact h
  have hw : s.captureWaits = true := by
    by_contra hc
    rw [State.pickNonHost, if_neg hc] at hn
    split_ifs at hn <;> cases hn
  simp only [State.captureWaits, Bool.and_eq_true, decide_eq_true_eq] at hw
  exact hw.1.2

/-- An outcome whose next state keeps the bounds. -/
def NextWithin (o : Host.Outcome State Fault Refusal) : Prop := ∀ t, o = .next t → t.Within (roomLeft 0)

namespace NextWithin

theorem next {t : State} (h : t.Within (roomLeft 0)) : NextWithin (.next t) := by
  intro u hu
  cases hu
  exact h

theorem ite {c : Prop} [Decidable c] {a b : Host.Outcome State Fault Refusal} (ha : c → NextWithin a)
    (hb : NextWithin b) : NextWithin (if c then a else b) := by
  split_ifs with hc
  · exact ha hc
  · exact hb

variable {s : State} (h : s.Within (roomLeft 0))
include h

/-- A request whose event reaches other blocks. -/
theorem request (k : ReqKind) (r : Request) (ups : List Upset) :
    NextWithin (.next (s.event (fun t => t.takeRequest k r ups))) := next (.event (h.takeByte _ _ _))

/-- A request whose event stays within its block. -/
theorem plainRequest (k : ReqKind) (r : Request) (ups : List Upset) :
    NextWithin (.next (s.plainEvent (fun t => t.takeRequest k r ups))) := next (h.takeByte _ _ _).closeEvent

/-- An event that happens only where its row offers it. -/
theorem offered {c : Prop} [Decidable c] {f : State → State} (hf : c → (f s).Within (roomLeft 0)) :
    NextWithin (if c then .next (s.event f) else .next s) := ite (fun hc => next (.event (hf hc))) (next h)

/-- A frame at a port, if taking it keeps the bounds. -/
theorem frame (code : Byte) (f : RxFrame) {take : State → State}
    (ht : ∀ {u : State}, u.Within (roomLeft 0) → (take u).Within (roomLeft 0)) :
    NextWithin (.next (s.frameEvent code f take)) := next (.ite (.event (h.receive code f ht)) h)

/-! ### Power, reset and chip select -/

theorem powerOn : NextWithin (execPowerOn s) := by
  have hu := within_unpowered s
  exact ite (fun _ => next h) (next (.ite { hu with } { hu with }))

theorem laneResetAssert (cut : Cut) : NextWithin (execLaneResetAssert cut s) := by
  have hu := within_unpowered s
  exact ite (fun _ => next (h.setLrst _))
    (next { hu with records := (length_ended_le _).trans h.records })

theorem laneResetRelease : NextWithin (execLaneResetRelease s) :=
  ite (fun _ => next (((h.setLrst false).setPhase .startUp).setCtl _)) (next (h.setLrst _))

theorem hcsFalling : NextWithin (execHcsFalling s) :=
  ite (fun _ => next h) (ite (fun _ => next (h.setLink (by rfl))) (next (h.setLink (by rfl))))

theorem drainAge : NextWithin (execDrainAge s) := by
  obtain ⟨hlen, hcells⟩ := h.queue
  obtain ⟨hl, hc⟩ := ageOldest_counts s.holdTime s.queue.entries
  have hq : roomLeft 0 (ageOldest s.holdTime s.queue.entries) s.entriesOwed := ⟨by rw [hl]; exact hlen, by rw [hc]; exact hcells⟩
  exact next { h with queue := hq }

theorem queryWindowEnd : NextWithin (execQueryWindowEnd s) := by
  unfold execQueryWindowEnd
  split
  · have hj : (((s.setJob none).setLane { s.lane with query := none })).Within (roomLeft 0) :=
      (h.setFreeJob rfl).setLane h.abstain h.history
    exact next (.event (.ite (hj.refuse _ _ _) ((hj.moveLane _).refuse _ _ _)))
  · exact next h

/-! ### The ends of the controller's operations, of a frame sent and of a timer -/

theorem pageRestoreReadDone (lost : Bool) : NextWithin (execPageRestoreReadDone lost s) := by
  unfold execPageRestoreReadDone
  split
  · exact next (.event (h.pageReadDone _ _ lost))
  · exact next h

theorem imageRestoreReadDone (lost : Bool) : NextWithin (execImageRestoreReadDone lost s) := by
  unfold execImageRestoreReadDone
  split
  · exact next (.event (h.imageReadDone _ _ lost))
  · exact next h

theorem commissioningEraseDone (left : Option CommLeft) : NextWithin (execCommissioningEraseDone left s) := by
  unfold execCommissioningEraseDone
  split
  · exact next (.event (h.eraseDone left))
  · exact next h

theorem commissioningProgramDone (left : Option RecordPlace) : NextWithin (execCommissioningProgramDone left s) := by
  unfold execCommissioningProgramDone
  split
  · exact next (.event (h.programDone _ left))
  · exact next h

theorem lockMarkProgrammed (left : Option (Field Unit)) : NextWithin (execLockMarkProgrammed left s) := by
  unfold execLockMarkProgrammed
  split
  · exact next (.event (h.lockDone left))
  · exact next h

theorem patrolTimerExpiry : NextWithin (execPatrolTimerExpiry s) := by
  unfold execPatrolTimerExpiry
  split
  · exact next h
  · exact next (h.setPatrol _)

theorem decayTimerExpiry : NextWithin (execDecayTimerExpiry s) := by
  unfold execDecayTimerExpiry
  split
  · exact next h
  · exact next h.decay.closeEvent

theorem beginFieldsProgrammed (left : Option (Field BeginFields)) : NextWithin (execBeginFieldsProgrammed left s) := by
  unfold execBeginFieldsProgrammed
  split
  · exact next (.event (h.beginFieldsDone _ _ left))
  · exact next h

theorem checkpointPageProgrammed (left : Option Place) : NextWithin (execCheckpointPageProgrammed left s) := by
  unfold execCheckpointPageProgrammed
  split
  · exact next (.event (h.pageProgramDone _ _ _ left))
  · exact next h

theorem completionMarkProgrammed (left : Option (Field Unit)) : NextWithin (execCompletionMarkProgrammed left s) := by
  unfold execCompletionMarkProgrammed
  split
  · exact next (.event (h.completionDone _ left))
  · exact next h

theorem abandonMarkProgrammed (left : Option (Field Unit)) : NextWithin (execAbandonMarkProgrammed left s) := by
  unfold execAbandonMarkProgrammed
  split
  · exact next (.event (h.abandonDone _ left))
  · exact next h

theorem preEraseSectorErased (left : Option SectorLeft) : NextWithin (execPreEraseSectorErased left s) := by
  unfold execPreEraseSectorErased
  split
  · exact next (.event (h.sectorDone _ _ left))
  · exact next h

theorem portFrameSent (p : PortId) : NextWithin (execPortFrameSent p s) := by
  unfold execPortFrameSent
  split
  · exact next h
  · exact next (h.setPorts _)

end NextWithin

/-- Every command keeps the bounds: a request by what its handler does, a grant, a frame and the end of an operation by the lemma
about it, and a command that its row does not offer by leaving the state as it is. -/
theorem exec_within {s : State} (h : s.Within (roomLeft 0)) (i : Instr) : NextWithin (exec i s) := by
  have hgrant := h.countNonHost
  cases i with
  | powerOn => exact .powerOn h
  | powerLoss cut => exact .ite (fun _ => .next h) (.next ((within_unpowered s).setArray _))
  | laneResetAssert cut => exact .laneResetAssert h cut
  | laneResetRelease => exact .laneResetRelease h
  | startUpComplete lost => exact .offered h (fun _ => h.completeStartUp lost)
  | hcsFalling => exact .hcsFalling h
  | hcsRising => exact .ite (fun _ => .next (h.setLink (by rfl))) (.next h)
  | unknownKind kind r => exact .ite (fun _ => .next h) (.next (h.takeByte kind r []).closeEvent)
  | read r ups => exact .request h _ r ups
  | readOn r ups => exact .request h _ r ups
  | write r => exact .plainRequest h _ r _
  | exchange r ups => exact .request h _ r ups
  | heldExchangeRead ups => exact .offered h (fun _ => h.heldExchange ups)
  | fill r => exact .request h _ r _
  | fillPage => exact .offered h (fun _ => h.fillNext)
  | drain => exact .offered h (fun _ => h.countHost.drainHead)
  | drainAge => exact .drainAge h
  | close r => exact .request h _ r _
  | signature ups => exact .offered h (fun _ => hgrant.signatureGrant ups)
  | cycleRecord r => exact .plainRequest h _ r _
  | enter r => exact .request h _ r _
  | queryWindowEnd => exact .queryWindowEnd h
  | withdraw r => exact .request h _ r _
  | restart r => exact .request h _ r _
  | cancelCheckpoint r => exact .request h _ r _
  | checkpointStatus r => exact .plainRequest h _ r _
  | restorePage r => exact .request h _ r _
  | pageRestoreReadDone lost => exact .pageRestoreReadDone h lost
  | pageRestoreWrite => exact .offered h (fun _ => h.pageWriteNext)
  | restoreImage r => exact .request h _ r _
  | imageRestoreReadDone lost => exact .imageRestoreReadDone h lost
  | imageRestoreWrite => exact .offered h (fun _ => h.imageWriteNext)
  | join r => exact .plainRequest h _ r _
  | faultFrame r => exact .plainRequest h _ r _
  | releaseFault r => exact .plainRequest h _ r _
  | faultSets r => exact .plainRequest h _ r _
  | clearAccrued r => exact .plainRequest h _ r _
  | setAlertMask r => exact .plainRequest h _ r _
  | status r => exact .plainRequest h _ r _
  | readCommissioning r => exact .plainRequest h _ r _
  | writeCommissioning r => exact .request h _ r _
  | commissioningEraseDone left => exact .commissioningEraseDone h left
  | commissioningProgramDone left => exact .commissioningProgramDone h left
  | lockCommissioning r => exact .request h _ r _
  | lockMarkProgrammed left => exact .lockMarkProgrammed h left
  | apply r => exact .request h _ r _
  | configure r => exact .request h _ r _
  | patrolTimerExpiry => exact .patrolTimerExpiry h
  | patrolVisit ups => exact .offered h (fun _ => hgrant.visitGrant ups)
  | decayTimerExpiry => exact .decayTimerExpiry h
  | capture ups => exact .offered h (fun hp => hgrant.captureGrant ups (room_of_pick_capture (s := s) hp))
  | beginFieldsProgrammed left => exact .beginFieldsProgrammed h left
  | checkpointPageProgrammed left => exact .checkpointPageProgrammed h left
  | completionMarkProgrammed left => exact .completionMarkProgrammed h left
  | abandonMarkProgrammed left => exact .abandonMarkProgrammed h left
  | preEraseSectorErased left => exact .preEraseSectorErased h left
  | transferOut ups => exact .offered h (fun _ => hgrant.transferOutGrant ups)
  | transferIn => exact .offered h (fun _ => h.transferInNext)
  | joinCheckGrant ups => exact .offered h (fun _ => hgrant.joinCheckPage ups)
  | joinIdleTimeout => exact .offered h (fun _ => h.endReception _ _ _)
  | voteWindowExpiry => exact .offered h (fun _ => h.expireVote)
  | permitHalfPeriod => exact .ite (fun _ => .next (h.setPins _)) (.next h)
  | announce f => exact .frame h _ f (fun hu => hu.takeAnnounce f)
  | query f => exact .frame h _ f (fun hu => hu.hand _ _)
  | state f => exact .frame h _ f (fun hu => hu.takeState f)
  | joinAsk f => exact .frame h _ f (fun hu => hu.takeJoinAsk f)
  | joinGrant f => exact .frame h _ f (fun hu => hu.takeJoinGrant f)
  | joinRefuse f => exact .frame h _ f (fun hu => hu.takeJoinRefuse f)
  | page f => exact .frame h _ f (fun hu => hu.takePage f)
  | pageAgain f => exact .frame h _ f (fun hu => hu.takePageAgain f)
  | joinFinal f => exact .frame h _ f (fun hu => hu.takeJoinFinal f)
  | joinAbort f => exact .frame h _ f (fun hu => hu.takeJoinAbort f)
  | laneFrameFaulty kind f => exact .frame h _ f (fun hu => hu)
  | laneCharTimeout p => exact .offered h (fun _ => h.brokenFrame p false)
  | portFrameSent p => exact .portFrameSent h p
  | markerInsideFrame p => exact .offered h (fun _ => h.brokenFrame p true)
  | replySentWhole => exact .ite (fun _ => .next (h.setLink (by rfl))) (.next h)

/-- Settles O19: a step runs the command at the front, and every command keeps the bounds. -/
theorem everyStepKeepsTheBounds : Obligations.EveryStepKeepsTheBounds := by
  intro s t h hstep
  rw [← within_roomLeft_iff] at h ⊢
  unfold step at hstep
  split at hstep
  · cases hstep
    exact h
  · exact exec_within (h.setPending _) _ t hstep

/-- Settles O16: the part right after reset drives no line, owes nothing, and holds nothing. -/
theorem resetMeetsTheInvariants : Obligations.ResetMeetsTheInvariants := by
  refine ⟨⟨⟨rfl, rfl, rfl, fun h => h⟩, rfl, rfl, rfl⟩, rfl, rfl, within_roomLeft_iff.mp ?_⟩
  have hu := within_unpowered State.cold
  exact { hu with }

end Sys2Proof.Machine
end

section
/-! WRITE: the eight checks in order, and the entry an accepted WRITE becomes (R17, R18). -/

namespace Sys2Proof.Machine

section Write

variable {s : State} {r : Request} {p o : Byte} {vs : List Word}

/-- What a WRITE asks to be written (R17). -/
def written (p o : Byte) (vs : List Word) : WriteArgs := { page := p.toNat, offset := o.toNat, values := vs }

theorem writeArgs_eq (hb : r.body = p :: o :: bytesOfWords vs) : writeArgs r.body = some (written p o vs) := by
  simp only [hb, writeArgs, wordsOfBytes_bytesOfWords, written]

/-- The checks of a WRITE, in the order of R17; a page byte is never above 255. -/
theorem writeRefusal_eq (s : State) (p o : Byte) (vs : List Word) :
    s.writeRefusal (written p o vs) =
      if 63 < o.toNat then some .badField
      else if vs = [] ∨ 16 < vs.length then some .badLength
      else if 64 < o.toNat + vs.length then some .span
      else if s.lane.state = .config then some .wrongState
      else if s.mapped p.toNat = false then some .unmapped
      else if (s.page p.toNat).state = .unset then some .pageUnset
      else if s.isGuarded p.toNat = true ∧
          (s.lane.state = .joining ∨ s.lane.state = .excluded ∨ s.lane.state = .halted) then some .guarded
      else if 8 ≤ s.queue.entries.length ∨ 64 < (s.queue.entries.map (fun e => e.values.length)).sum + vs.length then
        some .queueFull
      else none := by
  have hp : ¬ 255 < p.toNat := by have := p.isLt; omega
  simp only [State.writeRefusal, written, hp, false_or, Bool.not_eq_true', queueCellCount]
  rfl

/-- A WRITE that a check refuses: the read cursor is cleared, and the reply gives the status. -/
theorem execWrite_refused {st : Status} (hs : s.serves .write r) (hb : r.body = p :: o :: bytesOfWords vs)
    (h : s.writeRefusal (written p o vs) = some st) (hst : st ≠ .starting) :
    exec (.write r) s =
      .next (({ s with link := { s.link with cursor := none } } : State).replying .write r.tag st .empty) := by
  have hd : s.working.onWrite r = (s.setLink s.link.cleared).refuse .write r.tag st := by
    have h' : (s.working.setCursor none).writeRefusal (written p o vs) = some st := h
    simp only [State.onWrite, writeArgs_eq hb, h']
    rfl
  exact congrArg Host.Outcome.next
    (plain_reply_same (u := s.setLink s.link.cleared) (ups := []) hs hd rfl rfl hst rfl rfl rfl rfl)

/-- A WRITE that passes them: its entry goes to the tail of the queue. -/
theorem execWrite_accepted (hs : s.serves .write r) (hb : r.body = p :: o :: bytesOfWords vs)
    (h : s.writeRefusal (written p o vs) = none) :
    exec (.write r) s = .next
      ((({ s with link := { s.link with cursor := none } } : State).postEntry (written p o vs)).replying .write r.tag
        .accepted .empty) := by
  have hd : s.working.onWrite r = ((s.setLink s.link.cleared).postEntry (written p o vs)).refuse .write r.tag .accepted := by
    have h' : (s.working.setCursor none).writeRefusal (written p o vs) = none := h
    simp only [State.onWrite, writeArgs_eq hb, h']
    rfl
  exact congrArg Host.Outcome.next
    (plain_reply_same (u := (s.setLink s.link.cleared).postEntry (written p o vs)) (ups := []) hs hd rfl rfl (by decide)
      rfl rfl rfl rfl)

end Write

/-- Settles O6: each check that fails is an answer behind a cleared cursor, and an accepted WRITE posts its entry. -/
theorem writeIsCheckedThenPosted : Obligations.WriteIsCheckedThenPosted := by
  intro s r p o vs hs hb u
  have hchecks := writeRefusal_eq s p o vs
  have hrefused := fun st => execWrite_refused (st := st) hs hb
  split_ifs at hchecks ⊢
  case neg =>
    rw [execWrite_accepted hs hb hchecks, postEntry_eq]
    rfl
  all_goals exact hrefused _ hchecks (by decide)

end Sys2Proof.Machine
end

section
/-! CANCEL CHECKPOINT: the snapshot is abandoned and its slot given up (R106). -/

namespace Sys2Proof.Machine

section Cancel

variable {s : State}

/-- A part whose capture has been cancelled stands still: its engine is ERASING. -/
theorem still_captureOver (hc : s.ckpt.state = .capturing) (h : s.still) : s.captureOver.still := by
  obtain ⟨hclose, hrest, -, hdonor, hcheck, hrun, -⟩ := h
  have hckpt : s.captureOver.ckpt = s.ckpt.cancelled := if_pos hc
  have hflight : s.captureOver.flightStands = true := by rw [State.flightStands, hckpt]; rfl
  have herase : s.captureOver.eraseStands = true := by rw [State.eraseStands, hckpt]; rfl
  exact ⟨hclose, hrest, hflight, hdonor, hcheck, hrun, herase⟩

/-- The journal at the end of a snapshot, by its state (R32). -/
theorem Journal.ended_eq (j : Journal) :
    j.ended =
      if j.state = .pendingBase then { j with state := .broken, records := [], base := none, start := none }
      else { j with start := none } := by
  unfold Journal.ended
  cases j.state <;> rfl

/-- What a cancellation leaves, field by field. -/
theorem captureOver_of_capturing (hc : s.ckpt.state = .capturing) :
    s.captureOver = { s with
      pages := s.captureOver.pages
      ckpt := s.ckpt.cancelled
      journal := s.journal.ended
      ctl := s.ctl.cancelled s.ckpt.target } := by
  simp only [State.captureOver, hc, if_true]

end Cancel

/-- Settles O41: outside CAPTURING nothing but the reply, and in it the cancellation and the reply. -/
theorem cancelCheckpointAbandonsTheSnapshot : Obligations.CancelCheckpointAbandonsTheSnapshot := by
  intro s r hstill hs
  refine ⟨fun hc => ?_, fun hc hwf => ?_⟩
  · have hd : s.working.onCancel r = s.working.refuse .cancelCheckpoint r.tag .notRunning := if_neg hc
    exact congrArg Host.Outcome.next (event_refused (ups := []) hs hstill hd (by decide))
  · intro slot kept
    have ⟨_, _, hj, h2, _⟩ := hs
    have habandon : s.working.abandonCheckpoint = s.captureOver.working := by
      rw [← captureOver_working, ← captureOver_eq]
      exact (if_pos hc).symm
    have hd : s.working.onCancel r = s.captureOver.working.refuse .cancelCheckpoint r.tag .ok := by
      rw [← habandon]
      exact if_pos hc
    refine ⟨s.captureOver.pages, fun q => ?_, ?_⟩
    · have hpage := page_captureOver (s := s) (fun _ => hwf) q
      rw [if_pos hc] at hpage
      exact hpage
    · have hevent := event_reply_same (u := s.captureOver.working) (ups := []) hs hd rfl hj h2 rfl (by decide)
        (still_captureOver hc hstill) rfl rfl rfl rfl
      refine congrArg Host.Outcome.next (hevent.trans ?_)
      rw [working_replying]
      refine congrArg (fun u : State => u.replying .cancelCheckpoint r.tag .ok .empty) ?_
      rw [captureOver_of_capturing hc, Journal.ended_eq]
      rfl

end Sys2Proof.Machine
end

section
/-! What an event sets off, block by block, where a block has nothing to begin. -/

namespace Sys2Proof.Machine

section Blocks

variable {s t : State}

/-- No close is about to sign. -/
theorem beginClosePass_of_stands (h : s.closeStands = true) : s.beginClosePass = s := by
  unfold State.beginClosePass
  split
  · rfl
  · next c hc =>
    rw [if_neg]
    rintro ⟨hd, hall⟩
    simp only [State.closeStands, hc, hd, bne_self_eq_false, Bool.false_or, Bool.and_eq_true] at h
    obtain ⟨e, he, hcl⟩ := List.any_eq_true.mp h.1
    have := List.all_eq_true.mp hall e he
    simp [hcl] at this

/-- No restore can be taken. -/
theorem restoresTake_of_stands (h : s.rest.op ≠ .none ∨ s.rest.list = []) : s.restoresTake = s := by
  unfold State.restoresTake
  cases hl : s.rest.list with
  | nil => rfl
  | cons p ps => exact if_pos (h.resolve_right (by simp [hl]))

/-- No checkpoint is in flight. -/
theorem capture_blocks_of_no_flight (h : s.inFlight = false) : s.sourceFault.passUnset.nextProgram = s := by
  have hc : s.ckpt.state ≠ .capturing := by
    intro hc
    simp [State.inFlight, hc] at h
  have hfault : s.sourceFault = s := if_neg (by simp [h])
  have hpass : s.passUnset = s := if_neg (fun x => hc x.1)
  have hprogram : s.nextProgram = s := if_neg (fun x => hc x.1)
  rw [hfault, hpass, hprogram]

/-- No donation has a pass to begin or an end to note. -/
theorem passTest_of_stands (h : s.donorStands = true) : s.passTest = s := by
  refine ite_eq_right_iff.mpr fun ⟨hrole, hcp, hplan⟩ => ?_
  have hcp' : s.closingPassRuns = false := by simpa using hcp
  simp only [State.donorStands, hrole, hcp', hplan, bne_self_eq_false, Bool.false_or, Bool.and_eq_true,
    decide_eq_true_eq] at h
  obtain ⟨hlen, hup⟩ := h
  have hsame : ({ s.xfer with caughtUp := true } : Transfer) = s.xfer := by rw [← hup]
  rw [if_neg (Nat.not_lt.mpr hlen), hsame]
  rfl

/-- No closing pass ends. -/
theorem sendFinal_of_stands (h : s.closeStands = true) : s.sendFinal = s := by
  unfold State.sendFinal
  split
  · rfl
  · next c hc =>
    rw [if_neg]
    rintro ⟨hstage, hrole, hclosing⟩
    simp [State.closeStands, hc, hstage, hrole, hclosing] at h

/-- No join check begins. -/
theorem beginCheck_of_stands (h : s.checkStands = true) : s.beginCheck = s := by
  unfold State.beginCheck
  split
  · rfl
  · rw [if_neg]
    rintro ⟨hrole, hbegun, hin⟩
    simp [State.checkStands, hrole, hbegun, hin] at h

/-- A part that stands still but for the pre-erase settles into what the pre-erase makes of it. -/
theorem settleBlocks_of_erase (hclose : s.closeStands = true) (hrest : s.rest.op ≠ .none ∨ s.rest.list = [])
    (hflight : s.inFlight = false) (hdonor : s.donorStands = true) (hcheck : s.checkStands = true)
    (hrun : s.runStands = true) : s.settleBlocks = s.startPreErase := by
  rw [State.settleBlocks, beginClosePass_of_stands hclose, restoresTake_of_stands hrest,
    capture_blocks_of_no_flight hflight, passTest_of_stands hdonor, sendFinal_of_stands hclose,
    beginCheck_of_stands hcheck, updateRun_of_runStands hrun]

end Blocks

end Sys2Proof.Machine
end
section
/-! COMPLETION_MARK_PROGRAMMED: the slot becomes active, the journal is rebased, and the other slot is erased (R31, R98, R105). -/

namespace Sys2Proof.Machine

section Completion

variable {s : State} {slot : SlotId}

theorem mem_checkpointedPages {q : Nat} : q ∈ s.checkpointedPages ↔ q < 256 ∧ s.isCheckpointed q = true := by
  simp [State.checkpointedPages]

/-- The pages after a change, that done twice is as done once, of some of them. -/
theorem page_mapPages {f : PageRec → PageRec} (hf : ∀ r, f (f r) = f r) (hwf : s.pagesWf = true) (ps : List Nat) (q : Nat) :
    (s.mapPages f ps).page q = if q ∈ ps then f (s.page q) else s.page q := by
  induction ps generalizing s with
  | nil => rfl
  | cons p ps ih =>
    rw [State.mapPages, ih (s := s.mapPage p f) (pagesWf_putPage _ _ hwf)]
    by_cases hq : q = p
    · subst hq
      rw [State.mapPage, page_putPage_same (.inl hwf)]
      simp [hf]
    · rw [State.mapPage, page_putPage_other _ _ hq]
      simp [hq]

/-- A controller with nothing waiting is free once its operation has ended. -/
theorem opEnded_of_alone (hw : s.ctl.waiting = []) (hs : s.ctl.suspended = none) :
    s.opEnded = s.setCtl { s.ctl with op := none } := by
  simp only [State.opEnded, State.nextOp, State.setCtl_ctl, hw, hs, takeFirst, takeRank]
  rfl

/-- A free controller starts at once what it is asked for. -/
theorem ask_of_free {o : ArrayOp} (h : s.ctl.op = none) (ho : o ≠ .eraseCommissioning) :
    s.ask o = s.setCtl { s.ctl with op := some o } := by
  simp only [State.ask, h, State.startOp, ho, if_false]

/-- The checkpoint engine after the completion of the snapshot in `slot` (R105). -/
def Checkpoint.completed (c : Checkpoint) (slot : SlotId) : Checkpoint :=
  { (c.putSlot slot { c.slot slot with state := .complete }) with
    state := .idle, cycle := none, start := none, captured := 0, toCapture := 0, begun := false, asked := false }

/-- The journal after it (R31). -/
def Journal.completed (j : Journal) (slot : SlotId) (g : Option Word) : Journal :=
  match j.state with
  | .recording => { j with
      records := j.records.filter (fun x => decide (j.start.getD 0 ≤ x.sequence)), base := some (slot, g), start := none }
  | .pendingBase => { j with state := .recording, base := some (slot, g), start := none }
  | .broken => { j with start := none }

theorem journalCompletes_eq (s : State) (slot : SlotId) (g : Option Word) :
    s.journalCompletes slot g = s.setJournal (s.journal.completed slot g) := by
  unfold State.journalCompletes Journal.completed
  rcases s.journal with ⟨state, _, _, _, _⟩
  cases state <;> rfl

/-- A page as a completed checkpoint leaves it: dirty where it was written since the snapshot opened (R105). -/
def PageRec.checkpointed (r : PageRec) : PageRec := { r with dirty := r.written }

theorem slot_putSlot_other (c : Checkpoint) (slot : SlotId) (e : SlotEntry) :
    (c.putSlot slot e).slot (otherSlot slot) = c.slot (otherSlot slot) := by
  cases slot <;> rfl

/-- A change of pages looks at the page table alone. -/
theorem pages_mapPages_congr {t : State} (h : s.pages = t.pages) (f : PageRec → PageRec) (ps : List Nat) :
    (s.mapPages f ps).pages = (t.mapPages f ps).pages := by
  induction ps generalizing s t with
  | nil => exact h
  | cons p ps ih => exact ih (by simp only [State.mapPage, State.putPage, State.page, State.setPages_pages, h])

/-- The engine after a completion, with the other slot INVALID where it was COMPLETE. -/
def Checkpoint.superseded (c : Checkpoint) (slot : SlotId) : Checkpoint :=
  if (c.slot (otherSlot slot)).state = .complete then
    (c.completed slot).putSlot (otherSlot slot) { c.slot (otherSlot slot) with state := .invalid }
  else c.completed slot

/-- The completion event makes a COMPLETE other slot INVALID. -/
theorem completeCheckpoint_eq (ht : s.ckpt.target = slot) :
    s.completeCheckpoint = { s with
      pages := (s.mapPages PageRec.checkpointed s.checkpointedPages).pages
      journal := s.journal.completed slot (s.ckpt.slot slot).generation
      ckpt := s.ckpt.superseded slot } := by
  unfold State.completeCheckpoint
  rw [ht]
  dsimp only
  rw [journalCompletes_eq, mapPages_eq, slot_putSlot_other]
  have hpages := fun c => pages_mapPages_congr (s := (s.setCkpt c).setJournal (s.journal.completed slot
    (s.ckpt.slot slot).generation)) (t := s) rfl PageRec.checkpointed s.checkpointedPages
  unfold Checkpoint.superseded
  split_ifs
  · refine (congrArg (State.setPages _) (hpages _)).trans ?_
    cases slot <;> rfl
  · refine (congrArg (State.setPages _) (hpages _)).trans ?_
    cases slot <;> rfl

/-- A completed slot is active, and the other one inactive. -/
theorem inactive_completed {c : Checkpoint} (h : (c.slot slot).state = .complete)
    (ho : (c.slot (otherSlot slot)).state ≠ .complete) : c.inactive = otherSlot slot := by
  have hactive : c.active = some slot := by
    cases slot <;> simp_all [Checkpoint.active, Checkpoint.slot, otherSlot]
  rw [Checkpoint.inactive, hactive]

/-- The completion mark of a snapshot whose engine waits for it, at a free controller. -/
theorem completionDone_eq (hfin : s.ckpt.state = .finishing) (ht : s.ckpt.target = slot) (hw : s.ctl.waiting = [])
    (hs : s.ctl.suspended = none) (hmark : (s.array.slot slot).completion = .erased) :
    s.completionDone slot none = { s with
      pages := (s.mapPages PageRec.checkpointed s.checkpointedPages).pages
      array := s.array.putSlot slot { s.array.slot slot with completion := .whole () }
      ctl := { s.ctl with op := none }
      journal := s.journal.completed slot (s.ckpt.slot slot).generation
      ckpt := s.ckpt.superseded slot } := by
  have hprog : programField (s.array.slot slot).completion () none = (.whole (), false) := by rw [hmark]; rfl
  have hend := fun x => opEnded_of_alone (s := s.setArray x) hw hs
  unfold State.completionDone
  rw [hprog]
  dsimp only
  rw [hend]
  refine (if_pos hfin).trans ((if_neg Bool.false_ne_true).trans ?_)
  refine (completeCheckpoint_eq (slot := slot) (by exact ht)).trans ?_
  refine (congrArg (fun p => ({ s with
    pages := p
    array := s.array.putSlot slot { s.array.slot slot with completion := .whole () }
    ctl := { s.ctl with op := none }
    journal := s.journal.completed slot (s.ckpt.slot slot).generation
    ckpt := s.ckpt.superseded slot } : State)) ?_)
  refine pages_mapPages_congr ?_ PageRec.checkpointed s.checkpointedPages
  rfl

theorem superseded_state (c : Checkpoint) (slot : SlotId) :
    (c.superseded slot).state = .idle ∧ (c.superseded slot).hold = c.hold := by
  unfold Checkpoint.superseded
  split_ifs <;> cases slot <;> exact ⟨rfl, rfl⟩

/-- What the other slot is then, and that it is the inactive one. -/
theorem superseded_other (c : Checkpoint) (slot : SlotId) :
    (c.superseded slot).inactive = otherSlot slot ∧
      ((c.superseded slot).slot (otherSlot slot)).state =
        if (c.slot (otherSlot slot)).state = .complete then .invalid else (c.slot (otherSlot slot)).state := by
  have hslot : ((c.superseded slot).slot slot).state = .complete := by
    unfold Checkpoint.superseded
    split_ifs <;> cases slot <;> rfl
  have hother : ((c.superseded slot).slot (otherSlot slot)).state =
      if (c.slot (otherSlot slot)).state = .complete then .invalid else (c.slot (otherSlot slot)).state := by
    unfold Checkpoint.superseded
    split_ifs <;> cases slot <;> rfl
  refine ⟨inactive_completed hslot ?_, hother⟩
  rw [hother]
  split_ifs with h
  · decide
  · exact h

/-- Whatever the other slot becomes next, it is the completed engine whose slot it is. -/
theorem putSlot_superseded (c : Checkpoint) (slot : SlotId) (e : SlotEntry) :
    (c.superseded slot).putSlot (otherSlot slot) e = (c.completed slot).putSlot (otherSlot slot) e := by
  unfold Checkpoint.superseded
  split_ifs <;> cases slot <;> rfl

end Completion

/-- Settles O44: the completion event leaves a part that stands still but for the pre-erase, which begins where the other slot is
INVALID. -/
theorem completionMakesTheSlotActive : Obligations.CompletionMakesTheSlotActive := by
  intro s slot hstill hready hwf hfin htarget hhold hop hwait hsusp hmark old k
  have ⟨hrunning, hout, hreads⟩ := hready
  obtain ⟨hclose, hrest, -, hdonor, hcheck, hrun, -⟩ := hstill
  refine ⟨(s.mapPages PageRec.checkpointed s.checkpointedPages).pages, fun q => ?_, ?_⟩
  · have hpage := page_mapPages (s := s) (f := PageRec.checkpointed) (fun _ => rfl) hwf s.checkpointedPages q
    simp only [mem_checkpointedPages] at hpage
    exact hpage
  intro u
  have hexec : exec (.completionMarkProgrammed none) s = .next (s.event (fun t => t.completionDone slot none)) := by
    change execCompletionMarkProgrammed none s = _
    simp only [execCompletionMarkProgrammed, hop]
  obtain ⟨w, hw⟩ : ∃ w, w = ({ u with ckpt := s.ckpt.superseded slot, ctl := { s.ctl with op := none } } : State) := ⟨_, rfl⟩
  have hdone : s.completionDone slot none = w := by
    rw [completionDone_eq hfin htarget hwait hsusp hmark, hw]
    rfl
  obtain ⟨hidle, hhold'⟩ := superseded_state s.ckpt slot
  obtain ⟨hinactive, hother⟩ := superseded_other s.ckpt slot
  have hckpt : w.ckpt = s.ckpt.superseded slot := by rw [hw]
  rw [← hckpt] at hidle hhold' hinactive hother
  have hblocks : w.settle = w.startPreErase := by
    have hflight : w.inFlight = false := by rw [State.inFlight, hidle]; rfl
    subst hw
    exact (if_pos hrunning).trans (settleBlocks_of_erase hclose hrest hflight hdonor hcheck hrun)
  refine ⟨fun hold => ?_, fun hnc hni => ?_⟩
  · have hdue : w.startPreErase = w.preErase (otherSlot slot) := by
      have := startPreErase_of_due hidle (hhold'.trans hhold) (by
        left
        rw [hinactive, hother]
        split_ifs with h
        · rfl
        · exact hold.resolve_left h)
      rwa [hinactive] at this
    have herase : w.preErase (otherSlot slot) = { u with
        ckpt := { (k.putSlot (otherSlot slot) { state := .erasing, generation := none, cycle := none, start := none }) with
          state := .erasing, target := otherSlot slot, erased := 0 }
        ctl := { s.ctl with op := some (.eraseSector (otherSlot slot) 0) } } := by
      have hslot := putSlot_superseded s.ckpt slot { SlotEntry.unknown with state := .erasing }
      rw [State.preErase, hckpt, hslot, ask_of_free (by rw [hw]; rfl) (by simp), hw]
      cases slot <;> rfl
    have hevent : s.event (fun t => t.completionDone slot none) = w.preErase (otherSlot slot) := by
      refine event_settle_same (f := fun t => t.completionDone slot none) (by rw [hdone, hblocks, hdue]) ?_ ?_ ?_ hout.1
        ?_ ?_ ?_ ?_
      all_goals rw [herase]
      · have hflight : State.inFlight { u with
            ckpt := { (k.putSlot (otherSlot slot) { state := .erasing, generation := none, cycle := none, start := none }) with
              state := .erasing, target := otherSlot slot, erased := 0 }
            ctl := { s.ctl with op := some (.eraseSector (otherSlot slot) 0) } } = false := rfl
        exact settle_of_still ⟨hclose, hrest, rfl, hdonor, hcheck, hrun, rfl⟩
      · exact hreads
      · exact hout.2
      all_goals rfl
    rw [hexec, hevent, herase]
  · have hstill : w.still := by
      have herase : w.eraseStands = true := by
        have hstate : (w.ckpt.slot (otherSlot slot)).state = old.state := hother.trans (if_neg hnc)
        rw [State.eraseStands, hinactive, hstate]
        simp [hnc, hni]
      have hflight : w.flightStands = true := by rw [State.flightStands, hidle]
      subst hw
      exact ⟨hclose, hrest, hflight, hdonor, hcheck, hrun, herase⟩
    have hevent : s.event (fun t => t.completionDone slot none) = w := by
      refine (event_same (f := fun t => t.completionDone slot none) (by rw [hdone]; exact settle_of_still hstill) ?_ ?_
        hout.1 ?_ ?_ ?_ ?_).trans hdone
      all_goals rw [hdone, hw]
      · exact hreads
      · exact hout.2
      all_goals rfl
    rw [hexec, hevent, hw, Checkpoint.superseded, if_neg hnc]
    rfl

end Sys2Proof.Machine
end

section
/-! One drain of the head entry: what it writes, what the journal makes of it, and how the part settles behind it (R22 to R28). -/

namespace Sys2Proof.Machine

/-! ### The part behind a drain -/

section Standing

variable {s u : State}

/-- No block but the write queue has anything to begin. -/
abbrev State.stillButRun (s : State) : Prop :=
  s.closeStands = true ∧ (s.rest.op ≠ .none ∨ s.rest.list = []) ∧ s.flightStands = true ∧ s.donorStands = true ∧
    s.checkStands = true ∧ s.eraseStands = true

theorem runStands_updateRun (s : State) : s.updateRun.runStands = true := by
  have hrun : s.updateRun.runStands =
      if s.highMark ≤ s.queue.entries.length then s.updateRun.queue.run
      else if s.queue.entries.length ≤ s.lowMark then !s.updateRun.queue.run else true := rfl
  rw [hrun, State.updateRun, State.setQueue_queue]
  split_ifs <;> rfl

theorem settle_of_stillButRun (h : s.stillButRun) (hrun : s.phase = .running) : s.settle = s.updateRun := by
  obtain ⟨hclose, hrest, hflight, hdonor, hcheck, herase⟩ := h
  exact (if_pos hrun).trans (settleBlocks_of_run hclose hrest hflight hdonor hcheck herase)

/-- The run follows the occupancy, and with it the part stands still. -/
theorem settled_updateRun (h : s.stillButRun) : s.updateRun.settled := by
  obtain ⟨hclose, hrest, hflight, hdonor, hcheck, herase⟩ := h
  exact settle_of_still ⟨hclose, hrest, hflight, hdonor, hcheck, runStands_updateRun s, herase⟩

/-- A checkpoint in flight looks at the uncaptured pages and the restore list. -/
theorem flightStands_of_pages (h : s.flightStands = true) (hckpt : u.ckpt = s.ckpt) (hrest : u.rest = s.rest)
    (hmark : ∀ q, (u.page q).uncaptured = (s.page q).uncaptured)
    (hpage : ∀ q, (s.page q).uncaptured = true → u.page q = s.page q) : u.flightStands = true := by
  have hmem : ∀ q, q ∈ u.uncapturedPages ↔ q ∈ s.uncapturedPages := fun q => by
    rw [mem_uncapturedPages, mem_uncapturedPages, hmark]
  have hany : ∀ f g : Nat → Bool, (∀ q, u.page q = s.page q → f q = g q) →
      u.uncapturedPages.any f = s.uncapturedPages.any g := fun f g hfg => by
    have hq : ∀ q, q ∈ s.uncapturedPages → f q = g q := fun q hq => hfg q (hpage q (mem_uncapturedPages.mp hq))
    rw [Bool.eq_iff_iff, List.any_eq_true, List.any_eq_true]
    exact ⟨fun ⟨q, hm, hf⟩ => ⟨q, (hmem q).mp hm, hq q ((hmem q).mp hm) ▸ hf⟩,
      fun ⟨q, hm, hg⟩ => ⟨q, (hmem q).mpr hm, (hq q hm).symm ▸ hg⟩⟩
  have hnil : u.uncapturedPages = [] ↔ s.uncapturedPages = [] := by
    simp only [List.eq_nil_iff_forall_not_mem, hmem]
  have hbeq : (u.uncapturedPages == []) = (s.uncapturedPages == []) := by
    rw [Bool.eq_iff_iff, beq_iff_eq, beq_iff_eq, hnil]
  have hunrest := hany u.unrestorable s.unrestorable fun q hq => by rw [State.unrestorable, State.unrestorable, hq, hrest]
  have hset := hany (fun p => decide ((u.page p).state ≠ .unset)) (fun p => decide ((s.page p).state ≠ .unset))
    fun q hq => by rw [hq]
  rw [← h]
  simp only [State.flightStands, hckpt, hunrest, hset, hbeq, bne]

end Standing

/-! ### The grant -/

section Grant

variable {s : State} {e : Entry} {rest : List Entry}

theorem pick_of_drainEligible (hread : s.hostReadWaits = false) (hfill : s.fillWaits = false) (hmay : s.hostMay)
    (h : s.drainEligible = true) : s.pick = some .drain := by
  have hhost : s.pickHost = some .drain := by simp [State.pickHost, hread, hfill, h]
  simp [State.pick, hhost, hostTurn_of_hostMay hmay]

theorem discards_eq_false (hm : s.mapped e.page = true) (hu : (s.page e.page).state ≠ .unset) : s.discards e = false := by
  simp [State.discards, hm, hu]

theorem pick_of_drains (h : s.drains e rest) : s.pick = some .drain := by
  obtain ⟨hread, hfill, hmay, hq, hdue, hm, hu, hr, huncap⟩ := h
  have hdue' : s.drainDue = true := by
    simp only [State.drainDue, hq, Bool.or_eq_true, Bool.and_eq_true, Bool.not_eq_true', List.any_eq_true,
      decide_eq_true_eq]
    exact hdue
  exact pick_of_drainEligible hread hfill hmay (by simp [State.drainEligible, hq, hdue', discards_eq_false hm hu, hr, huncap])

end Grant

/-! ### The cells, the page and its marks (R27) -/

section Page

variable {s : State} {e : Entry} {rest : List Entry}

/-- The state with the entry's cells written and off the suspect list, and the page table `g`. -/
def State.written (s : State) (e : Entry) (m : List (Nat × Option StoredCell)) (g : List (Nat × PageRec)) : State :=
  { s with image := m, pages := g, suspects := s.suspectsOutside e, hostGrants := s.hostGrantsNext }

theorem mem_entry_cells (e : Entry) (a : Nat) :
    a ∈ (List.range e.values.length).map (fun i => cellAddr e.page (e.offset + i)) ↔
      e.page * 64 + e.offset ≤ a ∧ a < e.page * 64 + e.offset + e.values.length := by
  simp only [List.mem_map, List.mem_range, cellAddr]
  exact ⟨fun ⟨i, hi, ha⟩ => by omega, fun ⟨hlo, hhi⟩ => ⟨a - (e.page * 64 + e.offset), by omega, by omega⟩⟩

/-- The suspect cells left are those outside the entry. -/
theorem suspects_filter_entry (s : State) (e : Entry) :
    s.suspects.filter (fun a => !((List.range e.values.length).map (fun i => cellAddr e.page (e.offset + i))).contains a) =
      s.suspectsOutside e := by
  refine List.filter_congr fun a _ => ?_
  rw [Bool.eq_iff_iff]
  simp only [Bool.not_eq_true', ← Bool.not_eq_true, List.contains_iff_mem, mem_entry_cells, Bool.and_eq_true,
    decide_eq_true_eq]

/-- The page a drain writes: with `left` some of it is still suspect. -/
def PageRec.drainedInto (r : PageRec) (left : Bool) : PageRec :=
  { r with state := if r.state = .suspect ∧ left = true then .suspect else .sound, dirty := true, written := true }

theorem mapPage_congr {p : Nat} {f f' : PageRec → PageRec} (h : f (s.page p) = f' (s.page p)) :
    s.mapPage p f = s.mapPage p f' := by
  rw [State.mapPage, h, State.mapPage]

/-- A drain of an entry whose page can take it writes its cells and marks its page. -/
theorem drainPage_eq (hu : (s.page e.page).state ≠ .unset) (hr : (s.page e.page).state ≠ .restoring) :
    ∃ m g, s.entryWritten e m g ∧ s.countHost.drainPage e = s.written e m g := by
  obtain ⟨left, hleft⟩ : ∃ left, left = ((s.page e.page).suspectAll || (s.suspectsOutside e).any (fun a => a / 64 == e.page)) :=
    ⟨_, rfl⟩
  have hleft' : left = true ↔ (s.page e.page).suspectAll = true ∨ ∃ a ∈ s.suspectsOutside e, a / 64 = e.page := by
    rw [hleft]
    simp only [Bool.or_eq_true, List.any_eq_true, beq_iff_eq]
  have honly := onlyPage_mapPage (s := s) (p := e.page) (f := fun r => r.drainedInto left)
    (by simp [PageRec.drainedInto, PageRec.fresh])
  refine ⟨(s.countHost.writeRun (cellAddr e.page e.offset) e.values).image,
    (s.mapPage e.page (fun r => r.drainedInto left)).pages, ⟨fun b => ?_, fun q => ?_⟩, ?_⟩
  · refine Eq.trans ?_ (cell_writeRun s.countHost (e.page * 64 + e.offset) e.values b)
    have hcell := congrArg (fun t : State => t.cell b) (writeRun_eq s.countHost (cellAddr e.page e.offset) e.values)
    exact hcell.symm
  · refine (honly q).trans ?_
    by_cases hq : q = e.page
    · subst hq
      rw [if_pos rfl, if_pos rfl]
      simp only [PageRec.drainedInto, hleft']
    · rw [if_neg hq, if_neg hq]
  · have hclean : (!(s.page e.page).suspectAll && !(s.suspectsOutside e).any (fun a => a / 64 == e.page)) = !left := by
      rw [hleft, Bool.not_or]
    unfold State.drainPage
    rw [writeRun_eq]
    dsimp only
    generalize ht : (s.countHost.setImage _).setSuspects _ = t
    have hpage : t.page e.page = s.page e.page := by rw [← ht]; rfl
    have hsus : t.suspects = s.suspectsOutside e := by rw [← ht]; exact suspects_filter_entry s e
    refine (mapPage_congr (f' := fun r => r.drainedInto left) ?_).trans ?_
    · rw [hpage, hsus, hclean]
      cases hs : (s.page e.page).state with
      | unset => exact absurd hs hu
      | restoring => exact absurd hs hr
      | sound => simp [PageRec.drainedInto, hs]
      | stale => simp [PageRec.drainedInto, hs]
      | suspect => cases left <;> simp [PageRec.drainedInto, hs]
    · have hwritten : t = s.written e (s.countHost.writeRun (cellAddr e.page e.offset) e.values).image s.pages := by
        rw [← ht, suspects_filter_entry]
        rfl
      rw [hwritten]
      rfl

end Page

/-! ### The append (R28, R33 to R35) -/

section Append

variable {s : State} {e : Entry}

/-- The journal with the record of an entry at its end. -/
def Journal.added (j : Journal) (e : Entry) : Journal :=
  { j with
    records := j.records ++ [{ sequence := j.next, page := e.page, offset := e.offset, values := e.values }]
    next := if j.next = 4294967295 then 0 else j.next + 1 }

theorem addRecord_plain (h : s.journal.records.length ≠ 895) : s.addRecord e = s.setJournal (s.journal.added e) :=
  if_neg (by simp only [Config.journalHigh]; omega)

theorem addRecord_high (h : s.journal.records.length = 895) (hlow : s.pressure.p + 0 < 512) :
    s.addRecord e = (s.setJournal (s.journal.added e)).raised .journalHigh 0 :=
  (if_pos (by simp only [Config.journalHigh, h])).trans (raise_low hlow)

theorem journalAppend_broken (h : s.journal.state = .broken) : s.journalAppend e = s := if_pos h

theorem journalAppend_room (h : s.journal.state ≠ .broken) (hn : s.journal.next ≠ 0) (hr : s.journal.records.length < 1024) :
    s.journalAppend e = s.addRecord e :=
  (if_neg h).trans ((if_neg hn).trans (if_pos hr))

theorem journalAppend_end (h : s.journal.state ≠ .broken) (hn : s.journal.next = 0) :
    s.journalAppend e = (s.setJournal { s.journal with next := 1 }).journalBreaks e.page .sequenceEnd :=
  (if_neg h).trans (if_pos hn)

theorem journalAppend_full (h : s.journal.state ≠ .broken) (hn : s.journal.next ≠ 0) (hr : 1024 ≤ s.journal.records.length)
    (hstart : s.journal.start = none) : s.journalAppend e = s.journalBreaks e.page .journalFull := by
  refine (if_neg h).trans ((if_neg hn).trans ((if_neg (Nat.not_lt.mpr hr)).trans ?_))
  simp only [hstart]

/-- The records from the sequence number `n` on. -/
def Journal.keptFrom (j : Journal) (n : Nat) : List JournalRecord := j.records.filter (fun x => decide (n ≤ x.sequence))

theorem journalAppend_started {n : Nat} (h : s.journal.state ≠ .broken) (hn : s.journal.next ≠ 0)
    (hr : 1024 ≤ s.journal.records.length) (hstart : s.journal.start = some n) :
    s.journalAppend e =
      if (s.journal.keptFrom n).length < 1024 then
        (s.setJournal { s.journal with state := .pendingBase, base := none, records := s.journal.keptFrom n }).addRecord e
      else s.journalBreaks e.page .journalFull := by
  refine (if_neg h).trans ((if_neg hn).trans ((if_neg (Nat.not_lt.mpr hr)).trans ?_))
  simp only [hstart]
  rfl

theorem journalBreaks_eq (h : s.roomFor 16) (p : Nat) (why : Reason) :
    s.journalBreaks p why =
      (s.breakJournal.raised .journalBroken 16).framed
        (.transfer .journalBroken .checkpoint (some p) (s.journal.base.map (fun x => x.1)) 0 why) := by
  obtain ⟨hprim, hlow⟩ := h
  have hraise : s.breakJournal.raise .journalBroken FaultKind.journalBroken.weight = s.breakJournal.raised .journalBroken 16 :=
    raise_low hlow
  rw [State.journalBreaks, hraise]
  exact placeFrame_empty _ hprim

end Append

/-! ### The transfer engine (R27 step 5, R129, R133) -/

section Sets

variable {s : State} {p : Nat}

/-- At a donor a page of the sent set is owed again. -/
theorem resendIfSent_donor (h : s.xfer.role = .donor) :
    s.resendIfSent p = s.setXfer { s.xfer with
      resend := if p ∈ s.xfer.sent then setAdd p s.xfer.resend else s.xfer.resend } := by
  by_cases hp : p ∈ s.xfer.sent
  · rw [if_pos hp]
    exact if_pos ⟨h, List.contains_iff_mem.mpr hp⟩
  · rw [if_neg hp]
    exact if_neg fun hc => hp (List.contains_iff_mem.mp hc.2)

theorem resendIfSent_other (h : s.xfer.role ≠ .donor) : s.resendIfSent p = s := if_neg fun hc => h hc.1

theorem lostReceived_other (h : ∀ x, s.xfer.role ≠ .receiver x) : s.lostReceived p = s := by
  unfold State.lostReceived
  split
  · next x hx => exact absurd hx (h x)
  · rfl

theorem lostReceived_kept {x : RxPhase} (h : s.xfer.role = .receiver x) (hp : p ∉ s.xfer.received) :
    s.lostReceived p = s := by
  simp only [State.lostReceived, h]
  exact if_neg fun hc => hp (List.contains_iff_mem.mp hc)

theorem lostReceived_dropped {x : RxPhase} {d : Nat} {q : PortId} (h : s.xfer.role = .receiver x)
    (hpart : s.xfer.partner = some (d, q)) (hp : p ∈ s.xfer.received) :
    s.lostReceived p =
      (s.setXfer { s.xfer with received := setDrop p s.xfer.received }).hand q (.pageAgain p) := by
  simp only [State.lostReceived, h]
  refine (if_pos (List.contains_iff_mem.mpr hp)).trans ?_
  exact handPartner_eq (by exact hpart) _

end Sets

end Sys2Proof.Machine
end

section
/-! DRAIN and DRAIN_AGE as commands (R22 to R28, R33 to R35). -/

namespace Sys2Proof.Machine

section Drain

variable {s y : State} {e : Entry} {rest : List Entry} {m : List (Nat × Option StoredCell)} {g : List (Nat × PageRec)}

/-- The state with `rest` left in the queue. -/
def State.popped (s : State) (rest : List Entry) : State := s.setQueue { s.queue with entries := rest }

/-- A closing entry is left in `rest` behind every close that drains. -/
abbrev State.goesOn (s : State) (rest : List Entry) : Prop :=
  ∀ c, s.lane.close = some c → c.stage = .draining → ∃ x ∈ rest, x.closing = true

/-- `y` has what a drain leaves alone as `s` has it, and the page table `g`. -/
structure State.BehindDrain (y s : State) (g : List (Nat × PageRec)) : Prop where
  phase : y.phase = s.phase
  link : y.link = s.link
  notes : y.notes = s.notes
  pins : y.pins = s.pins
  lane : y.lane = s.lane
  comm : y.comm = s.comm
  ckpt : y.ckpt = s.ckpt
  rest : y.rest = s.rest
  role : y.xfer.role = s.xfer.role
  closing : y.xfer.closing = s.xfer.closing
  pages : y.pages = g

namespace State.BehindDrain

theorem endsAs (h : y.BehindDrain s g) : (y.popped rest).updateRun.EndsAs s :=
  ⟨h.phase, h.link, h.notes, h.pins, by
    rw [State.permitCond, State.permitCond, ← h.lane, ← h.comm]
    rfl⟩

/-- A checkpoint in flight is not concerned: the page was not uncaptured. -/
theorem flightStands (h : y.BehindDrain s g) (hw : s.entryWritten e m g) (huncap : (s.page e.page).uncaptured = false)
    (hflight : s.flightStands = true) : (y.popped rest).flightStands = true := by
  have hpage : ∀ q, (y.popped rest).page q = (s.setPages g).page q := fun q => by
    rw [State.page, State.page, State.setPages_pages, ← h.pages]
    rfl
  refine flightStands_of_pages hflight h.ckpt h.rest (fun q => ?_) (fun q hq => ?_)
  · rw [hpage, hw.2 q]
    split_ifs <;> rfl
  · rw [hpage, hw.2 q, if_neg]
    rintro rfl
    simp [huncap] at hq

theorem closeStands (h : y.BehindDrain s g) (hgoes : s.goesOn rest) (hclose : s.closeStands = true) :
    (y.popped rest).closeStands = true := by
  have hlane : (y.popped rest).lane = s.lane := h.lane
  unfold State.closeStands at hclose ⊢
  rw [hlane]
  cases hc : s.lane.close with
  | none => rfl
  | some c =>
    have hany : c.stage = .draining → rest.any (fun x => x.closing) = true := fun hs => by
      obtain ⟨x, hx, hcl⟩ := hgoes c hc hs
      exact List.any_eq_true.mpr ⟨x, hx, hcl⟩
    have hpass : (c.stage != .closingPass || s.xfer.role != .donor || s.xfer.closing != []) = true := by
      rw [hc] at hclose
      exact (Bool.and_eq_true_iff.mp hclose).2
    have hrole : (y.popped rest).xfer.role = s.xfer.role := h.role
    have hclosing : (y.popped rest).xfer.closing = s.xfer.closing := h.closing
    dsimp only
    rw [hrole, hclosing, hpass, Bool.and_true]
    by_cases hs : c.stage = .draining
    · rw [show (y.popped rest).queue.entries = rest from rfl, hany hs, Bool.or_true]
    · simp [hs]

theorem stillButRun (h : y.BehindDrain s g) (hstill : s.still) (hw : s.entryWritten e m g)
    (huncap : (s.page e.page).uncaptured = false) (hgoes : s.goesOn rest) (hdonor : y.donorStands = true)
    (hcheck : s.xfer.role ≠ .receiver .checking) : (y.popped rest).stillButRun := by
  obtain ⟨hclose, hrest, hflight, -, -, -, herase⟩ := hstill
  refine ⟨h.closeStands hgoes hclose, ?_, h.flightStands hw huncap hflight, hdonor, ?_, ?_⟩
  · rw [show (y.popped rest).rest = s.rest from h.rest]
    exact hrest
  · have hrole : (y.popped rest).xfer.role = s.xfer.role := h.role
    simp [State.checkStands, hrole, hcheck]
  · rw [← herase]
    simp only [State.eraseStands, show (y.popped rest).ckpt = s.ckpt from h.ckpt]

/-- The lines stay as they are where nothing was raised. -/
theorem drivePins_eq (h : y.BehindDrain s g) (hl : s.linesTrue) (hf : y.faults = s.faults) :
    (y.popped rest).updateRun.drivePins = (y.popped rest).updateRun := by
  refine h.endsAs.drivePins_same hl ?_
  rw [State.alertCond, State.alertCond, ← hf]
  rfl

theorem setXfer {z : Transfer} (h : y.BehindDrain s g) (hrole : z.role = s.xfer.role) (hclosing : z.closing = s.xfer.closing) :
    (y.setXfer z).BehindDrain s g :=
  ⟨h.phase, h.link, h.notes, h.pins, h.lane, h.comm, h.ckpt, h.rest, hrole, hclosing, h.pages⟩

theorem raised (h : y.BehindDrain s g) (k : FaultKind) (w : Nat) : (y.raised k w).BehindDrain s g :=
  ⟨h.phase, h.link, h.notes, h.pins, h.lane, h.comm, h.ckpt, h.rest, h.role, h.closing, h.pages⟩

theorem framed (h : y.BehindDrain s g) (f : FaultFrame) : (y.framed f).BehindDrain s g :=
  ⟨h.phase, h.link, h.notes, h.pins, h.lane, h.comm, h.ckpt, h.rest, h.role, h.closing, h.pages⟩

theorem setPorts (h : y.BehindDrain s g) (z : Ports) : (y.setPorts z).BehindDrain s g :=
  ⟨h.phase, h.link, h.notes, h.pins, h.lane, h.comm, h.ckpt, h.rest, h.role, h.closing, h.pages⟩

end State.BehindDrain

/-- A drain that is granted ends its event once the part has settled. -/
theorem exec_drain {u : State} (hpick : s.pick = some .drain) (hready : s.ready) (hsettle : s.countHost.drainHead.settle = u)
    (hu : u.settled) (hends : u.EndsAs s) : exec .drain s = .next u.drivePins := by
  obtain ⟨-, hout, hreads⟩ := hready
  refine (if_pos hpick).trans (congrArg Host.Outcome.next ?_)
  rw [event_of_settle (f := fun t => t.countHost.drainHead) hsettle hu (hends.readsDone hreads),
    closeEvent_of_quiet (hends.quiet hout.2)]

/-- A drain behind which only the high-mark run follows. -/
theorem exec_drain_goesOn (hstill : s.still) (hready : s.ready) (hd : s.drains e rest) (hw : s.entryWritten e m g)
    (hy : y.BehindDrain s g) (hdrain : s.countHost.drainHead = y.popped rest) (hgoes : s.goesOn rest)
    (hdonor : y.donorStands = true) (hcheck : s.xfer.role ≠ .receiver .checking) :
    exec .drain s = .next (y.popped rest).updateRun.drivePins := by
  have ⟨_, _, _, _, _, _, _, _, huncap⟩ := hd
  have hv := hy.stillButRun hstill hw huncap hgoes hdonor hcheck
  refine exec_drain (pick_of_drains hd) hready ?_ (settled_updateRun hv) hy.endsAs
  rw [hdrain]
  exact settle_of_stillButRun hv (hy.phase.trans hready.1)

/-- The journal's part of a drain. -/
def State.journalled (s : State) (e : Entry) (m : List (Nat × Option StoredCell)) (g : List (Nat × PageRec)) : State :=
  if s.isJournalled e.page = true then (s.written e m g).journalAppend e else s.written e m g

/-- A drain: the cells and the page, the journal, the transfer engine, the queue. -/
theorem drainHead_eq (hd : s.drains e rest) (hpage : s.countHost.drainPage e = s.written e m g) :
    s.countHost.drainHead = (((s.journalled e m g).resendIfSent e.page).lostReceived e.page).popped rest := by
  obtain ⟨-, -, -, hq, -, hm, hu, -⟩ := hd
  have hq' : s.countHost.queue.entries = e :: rest := hq
  have hdis : s.countHost.discards e = false := discards_eq_false (s := s.countHost) hm hu
  unfold State.drainHead
  simp only [hq', hdis, hpage]
  rfl

end Drain

end Sys2Proof.Machine
end

section
/-! DRAIN of an entry whose record the journal takes or does not want: the part goes on, signs, owes a page again or asks for one
(R27, R55, R129, R130, R133). -/

namespace Sys2Proof.Machine

section Drain

variable {s x y : State} {e : Entry} {rest : List Entry} {m : List (Nat × Option StoredCell)} {g : List (Nat × PageRec)}

/-- The engine with the pages `again` owed. -/
def Transfer.owing (x : Transfer) (again : List Nat) : Transfer := { x with resend := again }

/-- The engine at the start of the pass that sends the pages `again` (R130). -/
def Transfer.nextPass (x : Transfer) (again : List Nat) : Transfer :=
  { x with pass := x.pass + 1, plan := again, resend := [], caughtUp := false }

/-- The engine with page `p` no longer received (R133). -/
def Transfer.without (x : Transfer) (p : Nat) : Transfer := { x with received := setDrop p x.received }

theorem passTest_begins (hrole : s.xfer.role = .donor) (hclose : s.closingPassRuns = false) (hplan : s.xfer.plan = [])
    (hmany : 16 < s.xfer.resend.length) (hpass : s.xfer.pass < 8) :
    s.passTest = s.setXfer (s.xfer.nextPass s.xfer.resend) :=
  (if_pos ⟨hrole, by simp [hclose], hplan⟩).trans ((if_pos hmany).trans (if_neg (by simp [Config.passLimit]; omega)))

/-- A donor whose plan and resend set stand: the closing pass runs, pages of the plan are left, or few are owed. -/
theorem donorStands_resend {again : List Nat} (h : s.donorStands = true)
    (hlane : y.lane = s.lane) (hx : y.xfer = s.xfer.owing again) (hrole : s.xfer.role = .donor)
    (hagain : s.closingPassRuns = true ∨ s.xfer.plan ≠ [] ∨ again.length ≤ 16) : y.donorStands = true := by
  have hpass : y.closingPassRuns = s.closingPassRuns := by rw [State.closingPassRuns, State.closingPassRuns, hlane]
  simp only [State.donorStands, hrole, bne_self_eq_false, Bool.false_or, Bool.or_eq_true, bne_iff_ne, Bool.and_eq_true,
    decide_eq_true_eq] at h
  simp only [State.donorStands, hx, Transfer.owing, hpass, Bool.or_eq_true, Bool.and_eq_true, decide_eq_true_eq, bne_iff_ne]
  by_cases hfirst : s.closingPassRuns = true ∨ s.xfer.plan ≠ []
  · exact .inl (hfirst.imp .inr id)
  · have hcaught : s.xfer.caughtUp = true := (h.resolve_left hfirst).2
    have hlen : again.length ≤ 16 := by
      rcases hagain with h' | h' | h'
      · exact absurd (.inl h') hfirst
      · exact absurd (.inr h') hfirst
      · exact h'
    exact .inr ⟨hlen, hcaught⟩

/-- The part once the closing entries have drained and the signature unit has been seeded (R55, R56). -/
def State.signing (s : State) (c : Close) : State :=
  (s.setLane { s.lane with close := some { c with stage := .signing } }).beginSigning c.cycle

theorem beginClosePass_signs {c : Close} (hc : s.lane.close = some c) (hstage : c.stage = .draining)
    (hall : ∀ x ∈ s.queue.entries, x.closing = false) (hplan : s.signPlan ≠ []) : s.beginClosePass = s.signing c := by
  have hall' : s.queue.entries.all (fun e => !e.closing) = true := List.all_eq_true.mpr fun x hx => by simp [hall x hx]
  unfold State.beginClosePass
  simp only [hc]
  exact (if_pos ⟨hstage, hall'⟩).trans (if_neg hplan)

/-- A close that has just begun to sign leaves the part still but for the high-mark run. -/
theorem stillButRun_signing {c : Close} (hy : y.BehindDrain s g) (hstill : s.still) (hw : s.entryWritten e m g)
    (huncap : (s.page e.page).uncaptured = false) (hrole : s.xfer.role = .none) :
    ((y.popped rest).signing c).stillButRun := by
  obtain ⟨-, hrest, hflight, -, -, -, herase⟩ := hstill
  have hrole' : ((y.popped rest).signing c).xfer.role = .none := hy.role.trans hrole
  have hflight' : ((y.popped rest).signing c).flightStands = true := hy.flightStands (rest := rest) hw huncap hflight
  refine ⟨rfl, ?_, hflight', ?_, ?_, ?_⟩
  · rw [show ((y.popped rest).signing c).rest = s.rest from hy.rest]
    exact hrest
  · simp [State.donorStands, hrole']
  · simp [State.checkStands, hrole']
  · rw [← herase]
    simp only [State.eraseStands, show ((y.popped rest).signing c).ckpt = s.ckpt from hy.ckpt]

/-- A part settles as the close that has begun to sign makes it. -/
theorem settle_of_signing {c : Close} (hrun : s.phase = .running) (hbegin : s.beginClosePass = s.signing c)
    (h : (s.signing c).stillButRun) : s.settle = (s.signing c).updateRun := by
  have hstay : (s.signing c).beginClosePass = s.signing c := beginClosePass_of_stands h.1
  have hsame : s.settleBlocks = (s.signing c).settleBlocks := by
    unfold State.settleBlocks
    rw [hbegin, hstay]
  have hsettle := settle_of_stillButRun h (show (s.signing c).phase = .running from hrun)
  rw [State.settle, if_pos (show (s.signing c).phase = .running from hrun)] at hsettle
  rw [State.settle, if_pos hrun, hsame, hsettle]

/-- A part whose donor begins its next pass settles as that pass makes it. -/
theorem settle_of_passTest {z : Transfer} (hrun : s.phase = .running) (hclose : s.closeStands = true)
    (hrest : s.rest.op ≠ .none ∨ s.rest.list = []) (hflight : s.inFlight = false)
    (hpass : s.passTest = s.setXfer z) (h : (s.setXfer z).stillButRun) : s.settle = (s.setXfer z).updateRun := by
  have hsame : s.settleBlocks = (s.setXfer z).settleBlocks := by
    obtain ⟨hclose', hrest', -, hdonor', -⟩ := h
    have hflight' : (s.setXfer z).inFlight = false := hflight
    rw [State.settleBlocks, State.settleBlocks, beginClosePass_of_stands hclose, beginClosePass_of_stands hclose',
      restoresTake_of_stands hrest, restoresTake_of_stands hrest', capture_blocks_of_no_flight hflight,
      capture_blocks_of_no_flight hflight', hpass, passTest_of_stands hdonor']
  have hsettle := settle_of_stillButRun h (show (s.setXfer z).phase = .running from hrun)
  rw [State.settle, if_pos (show (s.setXfer z).phase = .running from hrun)] at hsettle
  rw [State.settle, if_pos hrun, hsame, hsettle]

/-! ### What a drain leaves behind, by the part's role -/

variable (hstill : s.still) (hready : s.ready) (hd : s.drains e rest) (hw : s.entryWritten e m g)
  (hdrain : s.countHost.drainHead = ((x.resendIfSent e.page).lostReceived e.page).popped rest)
  (hx : x.BehindDrain s g) (hxfer : x.xfer = s.xfer)
include hstill hready hd hw hdrain hx hxfer

theorem exec_drain_alone (hrole : s.xfer.role = .none) (hgoes : s.goesOn rest) :
    exec .drain s = .next (x.popped rest).updateRun.drivePins := by
  have hrole' : x.xfer.role = .none := by rw [hxfer, hrole]
  rw [resendIfSent_other (by simp [hrole']), lostReceived_other (by simp [hrole'])] at hdrain
  exact exec_drain_goesOn hstill hready hd hw hx hdrain hgoes (by simp [State.donorStands, hrole']) (by simp [hrole])

theorem exec_drain_signs {c : Close} (hrole : s.xfer.role = .none) (hlast : s.lastClosing c rest) (hplan : s.signPlan ≠ []) :
    exec .drain s = .next ((x.popped rest).signing c).updateRun.drivePins := by
  have ⟨_, _, _, _, _, _, _, _, huncap⟩ := hd
  obtain ⟨hc, hstage, hall⟩ := hlast
  have hrole' : x.xfer.role = .none := by rw [hxfer, hrole]
  have hplan' : (x.popped rest).signPlan ≠ [] := by
    have : (x.popped rest).signPlan = s.signPlan := by
      unfold State.signPlan State.regions
      rw [show (x.popped rest).comm = s.comm from hx.comm]
    rwa [this]
  have hbegin : (x.popped rest).beginClosePass = (x.popped rest).signing c :=
    beginClosePass_signs ((congrArg LaneUnit.close hx.lane).trans hc) hstage hall hplan'
  have hv := stillButRun_signing (rest := rest) (c := c) hx hstill hw huncap hrole
  rw [resendIfSent_other (by simp [hrole']), lostReceived_other (by simp [hrole'])] at hdrain
  refine exec_drain (pick_of_drains hd) hready ?_ (settled_updateRun hv)
    ⟨hx.phase, hx.link, hx.notes, hx.pins, ?_⟩
  · rw [hdrain]
    exact settle_of_signing (hx.phase.trans hready.1) hbegin hv
  · rw [State.permitCond, State.permitCond, ← hx.lane, ← hx.comm]
    rfl

/-- The resend set after the drain of a page. -/
abbrev State.resendAfter (s : State) (p : Nat) : List Nat := if p ∈ s.xfer.sent then setAdd p s.xfer.resend else s.xfer.resend

omit hstill hready hd hw hx in
theorem drainHead_donor (hrole : s.xfer.role = .donor) :
    s.countHost.drainHead = (x.setXfer (s.xfer.owing (s.resendAfter e.page))).popped rest := by
  rw [hdrain, resendIfSent_donor (hxfer ▸ hrole), hxfer, lostReceived_other (by simp [hrole])]
  rfl

theorem exec_drain_donor (hrole : s.xfer.role = .donor) (hgoes : s.goesOn rest)
    (hagain : s.closingPassRuns = true ∨ s.xfer.plan ≠ [] ∨ (s.resendAfter e.page).length ≤ 16) :
    exec .drain s =
      .next ((x.setXfer (s.xfer.owing (s.resendAfter e.page))).popped rest).updateRun.drivePins := by
  have ⟨_, _, _, hds, _, _, _⟩ := hstill
  have hdonor := donorStands_resend (y := x.setXfer (s.xfer.owing (s.resendAfter e.page))) hds hx.lane rfl hrole hagain
  exact exec_drain_goesOn hstill hready hd hw (hx.setXfer rfl rfl) (drainHead_donor hdrain hxfer hrole) hgoes hdonor
    (by simp [hrole])

theorem exec_drain_nextPass (hflight : s.inFlight = false) (hrole : s.xfer.role = .donor) (hgoes : s.goesOn rest)
    (hclose : s.closingPassRuns = false) (hplan : s.xfer.plan = []) (hmany : 16 < (s.resendAfter e.page).length)
    (hpass : s.xfer.pass < 8) :
    exec .drain s =
      .next ((x.setXfer (s.xfer.nextPass (s.resendAfter e.page))).popped rest).updateRun.drivePins := by
  have ⟨_, _, _, _, _, _, _, _, huncap⟩ := hd
  have hy := hx.setXfer (z := s.xfer.owing (s.resendAfter e.page)) rfl rfl
  have hy' := hx.setXfer (z := s.xfer.nextPass (s.resendAfter e.page)) rfl rfl
  have hv := hy'.stillButRun hstill hw huncap hgoes (by
    have hne : s.resendAfter e.page ≠ [] := by intro h; simp [h] at hmany
    simp [State.donorStands, Transfer.nextPass, hne]) (by simp [hrole])
  refine exec_drain (pick_of_drains hd) hready ?_ (settled_updateRun hv) hy'.endsAs
  rw [drainHead_donor hdrain hxfer hrole]
  have hclose' : ((x.setXfer (s.xfer.owing (s.resendAfter e.page))).popped rest).closingPassRuns = false := by
    rw [← hclose, State.closingPassRuns, State.closingPassRuns, ← hx.lane]
    rfl
  have hflight' : ((x.setXfer (s.xfer.owing (s.resendAfter e.page))).popped rest).inFlight = false := by
    rw [← hflight, State.inFlight, State.inFlight, ← hx.ckpt]
    rfl
  refine settle_of_passTest (z := s.xfer.nextPass (s.resendAfter e.page)) (hx.phase.trans hready.1)
    (hy.closeStands hgoes hstill.1) ?_ hflight' (passTest_begins hrole hclose' hplan hmany hpass) hv
  rw [show ((x.setXfer (s.xfer.owing (s.resendAfter e.page))).popped rest).rest = s.rest from hx.rest]
  exact hstill.2.1

theorem exec_drain_receiver (hrole : s.xfer.role = .receiver .receiving) (hgoes : s.goesOn rest) (hp : e.page ∉ s.xfer.received) :
    exec .drain s = .next (x.popped rest).updateRun.drivePins := by
  have hrole' : x.xfer.role = .receiver .receiving := by rw [hxfer, hrole]
  rw [resendIfSent_other (by simp [hrole']), lostReceived_kept hrole' (hxfer ▸ hp)] at hdrain
  exact exec_drain_goesOn hstill hready hd hw hx hdrain hgoes (by simp [State.donorStands, hrole']) (by simp [hrole])

theorem exec_drain_asksAgain {d : Nat} {q : PortId} (hrole : s.xfer.role = .receiver .receiving) (hgoes : s.goesOn rest)
    (hpart : s.xfer.partner = some (d, q)) (hp : e.page ∈ s.xfer.received) :
    exec .drain s =
      .next (((x.setXfer (s.xfer.without e.page)).hand q (.pageAgain e.page)).popped
        rest).updateRun.drivePins := by
  have hrole' : x.xfer.role = .receiver .receiving := by rw [hxfer, hrole]
  rw [resendIfSent_other (by simp [hrole']), lostReceived_dropped hrole' (hxfer ▸ hpart) (hxfer ▸ hp), hxfer] at hdrain
  have hy := hx.setXfer (z := s.xfer.without e.page) rfl rfl
  rw [hand_eq] at hdrain ⊢
  exact exec_drain_goesOn hstill hready hd hw (hy.setPorts _) hdrain hgoes (by simp [State.donorStands, Transfer.without, hrole])
    (by simp [hrole])

end Drain

/-- Settles O28: the record is appended or not wanted, and the part then settles by its role. -/
theorem drainWritesTheHeadEntry : Obligations.DrainWritesTheHeadEntry := by
  intro s e rest hstill hflight hready hd hroom
  have ⟨_, _, _, hq, _, hm, hu, hr, huncap⟩ := hd
  obtain ⟨m, g, hw, hpage⟩ := drainPage_eq hu hr
  refine ⟨m, g, hw, ?_⟩
  intro u goesOn again
  obtain ⟨j, hj⟩ : ∃ j, j = if s.isJournalled e.page = true ∧ s.journal.state ≠ .broken then s.journal.added e else s.journal :=
    ⟨_, rfl⟩
  have hx : s.journalled e m g = (s.written e m g).setJournal j := by
    rw [hj, State.journalled]
    by_cases hjour : s.isJournalled e.page = true
    · by_cases hbroken : s.journal.state = .broken
      · rw [if_pos hjour, if_neg (fun h => h.2 hbroken)]
        exact journalAppend_broken (s := s.written e m g) hbroken
      · obtain ⟨hnext, hlen, hhigh⟩ := hroom hjour hbroken
        rw [if_pos hjour, if_pos ⟨hjour, hbroken⟩]
        exact (journalAppend_room (s := s.written e m g) hbroken hnext hlen).trans
          (addRecord_plain (s := s.written e m g) hhigh)
    · rw [if_neg hjour, if_neg (fun h => hjour h.1)]
      rfl
  have hdrain := drainHead_eq hd hpage
  rw [hx] at hdrain
  have hbehind : ((s.written e m g).setJournal j).BehindDrain s g :=
    ⟨rfl, rfl, rfl, rfl, rfl, rfl, rfl, rfl, rfl, rfl, rfl⟩
  have hlines := hready.2.1.1
  refine ⟨fun hrole hgoes => ?_, fun c hrole hlast hplan => ?_, fun hrole hgoes hagain => ?_,
    fun hrole hgoes hnoclose hplan hmany hpass => ?_, fun d q hrole hgoes hpart => ⟨fun hp => ?_, fun hp => ?_⟩⟩
  · refine (exec_drain_alone hstill hready hd hw hdrain hbehind rfl hrole hgoes).trans (congrArg Host.Outcome.next ?_)
    rw [hbehind.drivePins_eq hlines rfl, hj]
    rfl
  · refine (exec_drain_signs hstill hready hd hw hdrain hbehind rfl hrole hlast hplan).trans (congrArg Host.Outcome.next ?_)
    refine (drivePins_same (u := ((((s.written e m g).setJournal j).popped rest).signing c).updateRun) hlines rfl rfl rfl
      rfl).trans ?_
    rw [hj]
    rfl
  · refine (exec_drain_donor hstill hready hd hw hdrain hbehind rfl hrole hgoes hagain).trans (congrArg Host.Outcome.next ?_)
    rw [(hbehind.setXfer (z := s.xfer.owing (s.resendAfter e.page)) rfl rfl).drivePins_eq hlines rfl, hj]
    rfl
  · refine (exec_drain_nextPass hstill hready hd hw hdrain hbehind rfl hflight hrole hgoes hnoclose hplan hmany hpass).trans
      (congrArg Host.Outcome.next ?_)
    rw [(hbehind.setXfer (z := s.xfer.nextPass (s.resendAfter e.page)) rfl rfl).drivePins_eq hlines rfl, hj]
    rfl
  · refine (exec_drain_receiver hstill hready hd hw hdrain hbehind rfl hrole hgoes hp).trans (congrArg Host.Outcome.next ?_)
    rw [hbehind.drivePins_eq hlines rfl, hj]
    rfl
  · refine (exec_drain_asksAgain hstill hready hd hw hdrain hbehind rfl hrole hgoes hpart hp).trans
      (congrArg Host.Outcome.next ?_)
    rw [hand_eq, hand_eq, ((hbehind.setXfer (z := s.xfer.without e.page) rfl rfl).setPorts _).drivePins_eq hlines rfl, hj]
    rfl

end Sys2Proof.Machine
end

section
/-! DRAIN that discards its entry or meets a full, high or ended journal, and DRAIN_AGE (R23, R25, R28, R33 to R35). -/

namespace Sys2Proof.Machine

section Drain

variable {s x : State} {e : Entry} {rest : List Entry} {m : List (Nat × Option StoredCell)} {g : List (Nat × PageRec)}

/-- An entry to be discarded only leaves the queue. -/
theorem exec_drain_discards (hstill : s.still) (hready : s.ready) (hpick : s.pick = some .drain)
    (hq : s.queue.entries = e :: rest) (hdis : s.discards e = true)
    (hclose : ∀ c, s.lane.close = some c → c.stage ≠ .draining) :
    exec .drain s = .next { s with
      hostGrants := s.hostGrantsNext, queue := { entries := rest, run := s.runAt rest.length } } := by
  obtain ⟨hcs, hrest, hflight, hdonor, hcheck, -, herase⟩ := hstill
  have hbehind : s.countHost.BehindDrain s s.pages := ⟨rfl, rfl, rfl, rfl, rfl, rfl, rfl, rfl, rfl, rfl, rfl⟩
  have hcs' := hbehind.closeStands (rest := rest) (fun c hc hs => absurd hs (hclose c hc)) hcs
  have hv : (s.countHost.popped rest).stillButRun := ⟨hcs', hrest, hflight, hdonor, hcheck, herase⟩
  have hhead : s.countHost.drainHead = s.countHost.popped rest := by
    have hq' : s.countHost.queue.entries = e :: rest := hq
    have hdis' : s.countHost.discards e = true := hdis
    simp only [State.drainHead, hq', hdis', if_true]
    rfl
  refine (exec_drain hpick hready ?_ (settled_updateRun hv) ⟨rfl, rfl, rfl, rfl, rfl⟩).trans (congrArg Host.Outcome.next ?_)
  · rw [hhead]
    exact settle_of_stillButRun hv hready.1
  · exact drivePins_same (u := (s.countHost.popped rest).updateRun) hready.2.1.1 rfl rfl rfl rfl

/-- The age of the oldest entry below T, if any, becomes T (R23). -/
theorem ageOldest_append {t : Nat} {older newer : List Entry} {x : Entry} (hold : ∀ y ∈ older, t ≤ y.age) (hx : x.age < t) :
    ageOldest t (older ++ x :: newer) = older ++ { x with age := t } :: newer := by
  induction older with
  | nil => exact if_pos hx
  | cons y ys ih =>
    have hy : ¬ y.age < t := Nat.not_lt.mpr (hold y List.mem_cons_self)
    exact (if_neg hy).trans (congrArg (y :: ·) (ih fun z hz => hold z (List.mem_cons_of_mem y hz)))

theorem ageOldest_of_old {t : Nat} {l : List Entry} (h : ∀ y ∈ l, t ≤ y.age) : ageOldest t l = l := by
  induction l with
  | nil => rfl
  | cons y ys ih =>
    have hy : ¬ y.age < t := Nat.not_lt.mpr (h y List.mem_cons_self)
    exact (if_neg hy).trans (congrArg (y :: ·) (ih fun z hz => h z (List.mem_cons_of_mem y hz)))

/-- The drain of a journalled entry, with what the append leaves. -/
theorem exec_drain_appends (hstill : s.still) (hready : s.ready) (hd : s.drains e rest) (hjour : s.isJournalled e.page = true)
    (hrole : s.xfer.role = .none) (hgoes : s.goesOn rest) (hw : s.entryWritten e m g)
    (hpage : s.countHost.drainPage e = s.written e m g) (hx : (s.written e m g).journalAppend e = x)
    (hbehind : x.BehindDrain s g) (hxfer : x.xfer = s.xfer) : exec .drain s = .next (x.popped rest).updateRun.drivePins := by
  have hdrain := drainHead_eq hd hpage
  rw [State.journalled, if_pos hjour, hx] at hdrain
  exact exec_drain_alone hstill hready hd hw hdrain hbehind hxfer hrole hgoes

end Drain

/-- Settles O29: the entry is popped, or it is written and the journal's case decides what is raised. -/
theorem drainDiscardsBreaksAndAges : Obligations.DrainDiscardsBreaksAndAges := by
  intro s e rest
  refine ⟨fun hstill hready hread hfill hmay hq hhold hrun hdis hclose => ?_, ?_, fun older newer x hq hold hx => ?_,
    fun hold => ?_⟩
  · have hdis' : s.discards e = true := by
      simp only [State.discards, Bool.or_eq_true, Bool.not_eq_true', decide_eq_true_eq]
      exact hdis
    have hdue : s.drainDue = true := by simp [State.drainDue, hq, hhold, hrun]
    have helig : s.drainEligible = true := by simp [State.drainEligible, hq, hdue, hdis']
    exact exec_drain_discards hstill hready (pick_of_drainEligible hread hfill hmay helig) hq hdis' hclose
  · intro hstill hready hd hjour hstate hrole hgoes hroom
    have ⟨_, _, _, _, _, _, hu, hr, _⟩ := hd
    obtain ⟨m, g, hw, hpage⟩ := drainPage_eq hu hr
    refine ⟨m, g, hw, ?_⟩
    intro u put record next broken breaks
    have hstate' : (s.written e m g).journal.state ≠ .broken := hstate
    have hlow : (s.written e m g).pressure.p + 0 < 512 := Nat.lt_of_le_of_lt (Nat.add_le_add_left (Nat.zero_le 16) _) hroom.2
    have hbehind : ∀ j, ((s.written e m g).setJournal j).BehindDrain s g := fun j =>
      ⟨rfl, rfl, rfl, rfl, rfl, rfl, rfl, rfl, rfl, rfl, rfl⟩
    have hexec := fun x => exec_drain_appends (x := x) hstill hready hd hjour hrole hgoes hw hpage
    have hplain : ∀ j, (s.written e m g).journalAppend e = (s.written e m g).setJournal j → exec .drain s = .next (put j) :=
      fun j hj => (hexec _ hj (hbehind j) rfl).trans
        (congrArg Host.Outcome.next ((hbehind j).drivePins_eq hready.2.1.1 rfl))
    have hhigh : ∀ j, (s.written e m g).journalAppend e = ((s.written e m g).setJournal j).raised .journalHigh 0 →
        exec .drain s = .next ((put j).raised .journalHigh 0).withAlert := fun j hj =>
      have hk := (hbehind j).raised .journalHigh 0
      (hexec _ hj hk rfl).trans (congrArg Host.Outcome.next (hk.endsAs.drivePins_eq hready.2.1.1))
    have hbreaks : ∀ j why, (s.written e m g).journalAppend e =
        (((s.written e m g).setJournal j).raised .journalBroken 16).framed
          (.transfer .journalBroken .checkpoint (some e.page) (s.journal.base.map (fun x => x.1)) 0 why) →
        exec .drain s = .next (breaks j why) := fun j why hj =>
      have hk := ((hbehind j).raised .journalBroken 16).framed _
      (hexec _ hj hk rfl).trans (congrArg Host.Outcome.next (hk.endsAs.drivePins_eq hready.2.1.1))
    refine ⟨fun hnext hlen => ?_, fun hnext => ?_, fun hnext hlen hstart => ?_, fun n hnext hlen hstart => ?_⟩
    · have hroom' : (s.written e m g).journal.records.length < 1024 := Nat.lt_of_le_of_lt (Nat.le_of_eq hlen) (by decide)
      exact hhigh _ ((journalAppend_room hstate' hnext hroom').trans (addRecord_high hlen hlow))
    · exact hbreaks _ _ ((journalAppend_end hstate' hnext).trans (journalBreaks_eq (by exact hroom) _ _))
    · exact hbreaks _ _ ((journalAppend_full hstate' hnext hlen hstart).trans
        (journalBreaks_eq (s := s.written e m g) hroom _ _))
    · intro kept rebased
      have happ := journalAppend_started (e := e) hstate' hnext hlen hstart
      refine ⟨fun hkept hne => ?_, fun hkept => ?_, fun hkept => ?_⟩
      · exact hplain _ (happ.trans ((if_pos hkept).trans (addRecord_plain hne)))
      · have hkept' : kept.length < 1024 := Nat.lt_of_le_of_lt (Nat.le_of_eq hkept) (by decide)
        exact hhigh _ (happ.trans ((if_pos hkept').trans (addRecord_high hkept hlow)))
      · exact hbreaks _ _ (happ.trans ((if_neg (Nat.not_lt.mpr hkept)).trans
          (journalBreaks_eq (s := s.written e m g) hroom _ _)))
  · refine congrArg Host.Outcome.next ?_
    rw [hq, ageOldest_append hold hx]
    rfl
  · refine congrArg Host.Outcome.next ?_
    rw [ageOldest_of_old hold]
    rfl

end Sys2Proof.Machine
end

section
/-! The pages a signature grant reads: what their check finds, and what it feeds (R56, R65). -/

namespace Sys2Proof.Machine

section Scan

variable {skip : Nat → Bool} {p : Nat} {s : State}

/-- A check that finds no correctable cell writes nothing. -/
theorem scanCells_state {os : List Nat} (h : ∀ o ∈ os, (s.cell (cellAddr p o)).damage ≠ .oneBit) (r : Scan) :
    (scanCells skip p os s r).1 = s := by
  induction os generalizing r with
  | nil => rfl
  | cons o os ih =>
    obtain ⟨r', hstep, -, -⟩ := scanCells_cons (skip := skip) (p := p) o os s r
    have hsame : s.checked skip (cellAddr p o) = s := if_neg (by simp [State.finds, h o List.mem_cons_self])
    rw [hstep, hsame]
    exact ih (fun x hx => h x (List.mem_cons_of_mem o hx)) r'

/-- A check rewrites cells with the values they hold. -/
theorem value_checked (s : State) (a b : Nat) : ((s.checked skip a).cell b).value = (s.cell b).value := by
  rw [cell_checked]
  split_ifs <;> rfl

theorem damage_checked {a b : Nat} (h : (s.cell b).damage ≠ .twoBits) :
    ((s.checked skip a).cell b).damage ≠ .twoBits := by
  rw [cell_checked]
  split_ifs
  · exact Damage.noConfusion
  · exact h

/-- A check that finds no uncorrectable cell reads the values the cells hold. -/
theorem scanCells_values {os : List Nat} (h : ∀ o ∈ os, (s.cell (cellAddr p o)).damage ≠ .twoBits) (r : Scan) :
    (scanCells (fun _ => false) p os s r).2.values = r.values ++ os.map (fun o => (s.cell (cellAddr p o)).value) := by
  induction os generalizing s r with
  | nil => simp [scanCells]
  | cons o os ih =>
    have hstep : ∃ r', scanCells (fun _ => false) p (o :: os) s r =
        scanCells (fun _ => false) p os (s.checked (fun _ => false) (cellAddr p o)) r' ∧
        r'.values = r.values ++ [(s.cell (cellAddr p o)).value] := by
      have ho := h o List.mem_cons_self
      rw [scanCells]
      unfold State.checked State.finds
      cases hd : (s.cell (cellAddr p o)).damage with
      | twoBits => exact absurd hd ho
      | intact => exact ⟨{ r with values := r.values ++ [(s.cell (cellAddr p o)).value] }, by simp [hd], rfl⟩
      | oneBit =>
        exact ⟨{ r with values := r.values ++ [(s.cell (cellAddr p o)).value], corrected := r.corrected + 1 },
          by simp [hd], rfl⟩
    obtain ⟨r', heq, hvalues⟩ := hstep
    rw [heq, ih (fun x hx => damage_checked (h x (List.mem_cons_of_mem o hx))) r', hvalues, List.append_assoc]
    simp only [value_checked, List.map_cons, List.singleton_append]

/-- The check of a whole page, no cell skipped. -/
abbrev State.pageScan (s : State) (p : Nat) : State × Scan := scanPage (fun _ => false) p s

/-- The offsets of a page's cells with the given damage. -/
def State.offsetsWith (s : State) (p : Nat) (d : Damage) : List Nat :=
  (List.range 64).filter (fun o => decide ((s.cell (p * 64 + o)).damage = d))

theorem pageScan_counts (s : State) (p : Nat) :
    (s.pageScan p).2.corrected = (s.offsetsWith p .oneBit).length ∧ (s.pageScan p).2.bad = s.offsetsWith p .twoBits := by
  have h := scanCells_counts (skip := fun _ => false) (p := p) (List.nodup_range (n := 64)) s Scan.empty
  simp only [Scan.empty, Nat.zero_add, List.nil_append, State.finds, Bool.not_false, Bool.true_and] at h
  exact h

theorem offsetsWith_nil {d : Damage} (h : ∀ o, o < 64 → (s.cell (p * 64 + o)).damage ≠ d) : s.offsetsWith p d = [] :=
  List.filter_eq_nil_iff.mpr fun o ho => by simpa using h o (List.mem_range.mp ho)

/-- The one cell of a page with that damage. -/
theorem offsetsWith_one {d : Damage} {o : Nat} (ho : o < 64) (hd : (s.cell (p * 64 + o)).damage = d)
    (h : ∀ x, x < 64 → x ≠ o → (s.cell (p * 64 + x)).damage ≠ d) : s.offsetsWith p d = [o] := by
  have hfilter : s.offsetsWith p d = (List.range 64).filter (fun x => x == o) := by
    refine List.filter_congr fun x hx => ?_
    by_cases hxo : x = o
    · simp [hxo, hd]
    · simp [hxo, h x (List.mem_range.mp hx) hxo]
  rw [hfilter, List.filter_beq, List.count_eq_one_of_mem List.nodup_range (List.mem_range.mpr ho)]
  rfl

/-- The store and the values read from a page without an uncorrectable cell. -/
theorem pageScan_readable (h : ∀ o, o < 64 → (s.cell (p * 64 + o)).damage ≠ .twoBits) :
    (s.pageScan p).2.values = (List.range 64).map (fun o => (s.cell (p * 64 + o)).value) ∧ (s.pageScan p).2.bad = [] :=
  ⟨scanCells_values (fun o ho => h o (List.mem_range.mp ho)) Scan.empty, (pageScan_counts s p).2.trans (offsetsWith_nil h)⟩

theorem pageScan_state (h : ∀ o, o < 64 → (s.cell (p * 64 + o)).damage ≠ .oneBit) : (s.pageScan p).1 = s :=
  scanCells_state (fun o ho => h o (List.mem_range.mp ho)) Scan.empty

/-- Every cell of a page without an uncorrectable one is sound once it has been checked. -/
theorem cell_pageScan (h : ∀ o, o < 64 → (s.cell (p * 64 + o)).damage ≠ .twoBits) (b : Nat) :
    (s.pageScan p).1.cell b = if b / 64 = p then { value := (s.cell b).value, damage := .intact } else s.cell b := by
  refine (cell_scanCells ..).trans ?_
  have hmem : b ∈ (List.range 64).map (cellAddr p) ↔ b / 64 = p := by
    simp only [List.mem_map, List.mem_range, cellAddr]
    exact ⟨fun ⟨o, ho, hb⟩ => by omega, fun hb => ⟨b % 64, by omega, by omega⟩⟩
  by_cases hb : b / 64 = p
  · rw [if_pos hb]
    have hne := h (b % 64) (Nat.mod_lt b (by decide))
    rw [show p * 64 + b % 64 = b by omega] at hne
    split_ifs with hone
    · rfl
    · have hone' : (s.cell b).damage ≠ .oneBit := fun hd => hone ⟨hmem.mpr hb, by simp [State.finds, hd]⟩
      cases hc : s.cell b with
      | mk v d => cases d <;> simp_all
  · rw [if_neg hb, if_neg fun hx => hb (hmem.mp hx.1)]

end Scan

section Grant

variable {s : State} {c : Close} {st : SignStep} {rest : List SignStep}

/-- The signature unit once a page's cells have been fed (R56, R65). -/
def State.fedSign (s : State) (n : Half) (st : SignStep) (rest : List SignStep) (values : List Word) : SignUnit :=
  let fed := pageFed (s.sign.a, s.sign.b) st values
  if st.last then
    { a := n.toNat % 65519, b := s.station, results := s.sign.results ++ [(st.region, fed)], todo := rest }
  else { s.sign with a := fed.1, b := fed.2, todo := rest }

theorem feedPage_eq (h : s.sign.todo = st :: rest) (n : Half) (values : List Word) :
    s.feedPage n st values = s.setSign (s.fedSign n st rest values) := by
  unfold State.feedPage State.fedSign
  rw [h]
  by_cases hl : st.last = true
  · simp only [hl, if_true]
    rfl
  · simp only [hl]
    rfl

theorem readable_iff {p : Nat} : s.readable p = true ↔ (s.page p).state = .sound ∨ (s.page p).state = .stale := by
  simp [State.readable]

/-- A grant on a page without an uncorrectable cell. -/
theorem signatureGrant_fed (hc : s.lane.close = some c) (ht : s.sign.todo = st :: rest) (hr : s.readable st.page = true)
    (h : ∀ o, o < 64 → (s.cell (st.page * 64 + o)).damage ≠ .twoBits) :
    s.signatureGrant [] =
      let t := (((s.pageScan st.page).1.setSign
        (s.fedSign c.cycle st rest ((List.range 64).map (fun o => (s.cell (st.page * 64 + o)).value)))).raiseCorrected
          (s.offsetsWith st.page .oneBit).length)
      if rest = [] then t.endPass none (voting s.lane.state) else t := by
  obtain ⟨hvalues, hbad⟩ := pageScan_readable h
  have himage : (s.pageScan st.page).1 = s.setImage (s.pageScan st.page).1.image := scanCells_eq_setImage _ _ _
  have hfeed : (s.pageScan st.page).1.feedPage c.cycle st (s.pageScan st.page).2.values =
      (s.pageScan st.page).1.setSign (s.fedSign c.cycle st rest (s.pageScan st.page).2.values) := by
    rw [himage]
    exact feedPage_eq (by exact ht) _ _
  have hcorr := (pageScan_counts s st.page).1
  unfold State.signatureGrant
  simp only [hc, ht, hr, if_true]
  refine (if_pos hbad).trans ?_
  rw [← hvalues, ← hcorr]
  exact congrArg (fun t : State => if rest = [] then (t.raiseCorrected (s.pageScan st.page).2.corrected).endPass none
    (voting s.lane.state) else t.raiseCorrected (s.pageScan st.page).2.corrected) hfeed

/-- A grant on a page that cannot be signed as it stands. -/
theorem signatureGrant_unsignable (hc : s.lane.close = some c) (ht : s.sign.todo = st :: rest)
    (hr : s.readable st.page = false) :
    s.signatureGrant [] = s.endPass (some .unsignablePage) (voting s.lane.state) := by
  simp only [State.signatureGrant, hc, ht, hr, Bool.false_eq_true, if_false]

/-- A grant on a page with one uncorrectable cell and no correctable one. -/
theorem signatureGrant_found (hc : s.lane.close = some c) (ht : s.sign.todo = st :: rest) (hr : s.readable st.page = true)
    (hbad : (s.pageScan st.page).2.bad ≠ []) (hstate : (s.pageScan st.page).1 = s) :
    s.signatureGrant [] =
      (s.handOn st.page (s.pageScan st.page).2).endPass (some .newUncorrectable) (voting s.lane.state) := by
  unfold State.signatureGrant
  simp only [hc, ht, hr, if_true]
  refine (if_neg hbad).trans ?_
  exact congrArg (fun t : State => (t.handOn st.page (s.pageScan st.page).2).endPass (some .newUncorrectable)
    (voting s.lane.state)) hstate

end Grant

end Sys2Proof.Machine
end

section
/-! The steps at the end of a signature pass (R57, R58, R60, R61, R77, R131). -/

namespace Sys2Proof.Machine

theorem voting_iff {x : LaneState} : voting x = true ↔ x = .forming ∨ x = .active := by
  simp [voting]

theorem voting_eq_false {x : LaneState} : voting x = false ↔ ¬ (x = .forming ∨ x = .active) := by
  rw [← voting_iff, Bool.not_eq_true]

section Steps

variable {s : State} {c : Close} {sig : Option Word} {rs : Option (List (Nat × Word))} {completed : Bool}

/-- The cycle record of a close at its creation (R61). -/
theorem newRecord_eq (hv : voting s.lane.state = completed) :
    s.newRecord c sig rs =
      { cycle := c.cycle, own := s.lane.state, signature := sig, regions := rs
        peer1 := { lane := s.lane.peer1.lane, arrival := if completed then .awaited else .notExpected, state := none,
                   signature := none }
        peer2 := { lane := s.lane.peer2.lane, arrival := if completed then .awaited else .notExpected, state := none,
                   signature := none }
        outcome := if completed then .pending else .notVoted, checkpoint := false } := by
  rw [← hv]
  rfl

/-- The hold is released; the close is over unless its vote is undecided (R54, R60). -/
theorem releaseHold_eq (hc : s.lane.close = some c) :
    s.releaseHold = s.setLane { s.lane with
      lastClosed := c.cycle, close := if c.vote = .running then some { c with stage := .closed } else none } := by
  unfold State.releaseHold State.retireClose
  simp only [hc]
  by_cases hv : c.vote = .running
  · simp [hv]
  · simp [hv]
    rfl

theorem checkpointStep_skips (h : c.withCheckpoint = false ∨ completed = false) : s.checkpointStep c completed = s := by
  unfold State.checkpointStep
  rcases h with h | h <;> simp [h]

theorem closingStep_releases (hrole : s.xfer.role ≠ .donor) : s.closingStep completed = s.releaseHold := by
  unfold State.closingStep
  cases hc : s.lane.close with
  | none => simp only [State.releaseHold, hc]
  | some c => simp [hrole]

/-- The lane once a close has made its record. -/
def LaneUnit.recorded (l : LaneUnit) (c : Close) (x : CycleRecord) : LaneUnit :=
  { l with history := addHistory l.history x, close := some c }

/-- The lane once a close without a vote is over. -/
def LaneUnit.closed (l : LaneUnit) (c : Close) (x : CycleRecord) : LaneUnit :=
  { l with history := addHistory l.history x, lastClosed := c.cycle, close := none }

/-- The lane once a close has announced its record and waits for the vote. -/
def LaneUnit.announced (l : LaneUnit) (c : Close) (x : CycleRecord) (window : Nat) : LaneUnit :=
  { l.recorded { c with vote := .running } x with window := some window }

/-- The announcement of a close (R70). -/
def State.announcement (s : State) (c : Close) (sig : Option Word) : LaneFrame :=
  .announce c.cycle s.lane.state sig sig.isNone s.pressure.p (decide (s.xfer.role = .donor))

theorem recordAndAnnounce_silent (hv : voting s.lane.state = false) :
    s.recordAndAnnounce c sig rs = s.setLane (s.lane.recorded { c with signature := sig } (s.newRecord c sig rs)) :=
  if_neg (by simp [hv])

theorem recordAndAnnounce_votes (hv : voting s.lane.state = true) :
    s.recordAndAnnounce c sig rs =
      ((s.setLane (s.lane.announced { c with signature := sig } (s.newRecord c sig rs) s.voteWindow)).handBoth
        (s.announcement c sig)).testVote := by
  refine (if_pos (by exact hv)).trans (congrArg State.testVote ?_)
  rw [handBoth_eq, handBoth_eq]
  rfl

/-- An expected peer without an announcement keeps the vote waiting (R77). -/
theorem testVote_waits (h : s.lane.peer1.missing = true ∨ s.lane.peer2.missing = true) : s.testVote = s := by
  have hvote : s.voteComplete = false := by
    rcases h with h | h <;> simp [State.voteComplete, h]
  unfold State.testVote
  split
  · rfl
  · exact if_neg (by simp [hvote])

/-- The steps of a close outside FORMING and ACTIVE. -/
theorem closeSteps_silent (hv : voting s.lane.state = false) (hrole : s.xfer.role = .none)
    (hck : c.withCheckpoint = false ∨ completed = false) (hvote : c.vote = .notStarted) :
    ((s.recordAndAnnounce c sig rs).checkpointStep c completed).closingStep completed =
      s.setLane (s.lane.closed c (s.newRecord c sig rs)) := by
  rw [recordAndAnnounce_silent hv, checkpointStep_skips hck, closingStep_releases (by simp [hrole]),
    releaseHold_eq (c := { c with signature := sig }) rfl, if_neg (by simp [hvote])]
  rfl

/-- The steps of a close in FORMING or ACTIVE whose vote waits, in a part that does not donate. -/
theorem closeSteps_votes (hv : voting s.lane.state = true) (hrole : s.xfer.role = .none)
    (hck : c.withCheckpoint = false ∨ completed = false)
    (hmiss : s.lane.peer1.missing = true ∨ s.lane.peer2.missing = true) :
    ((s.recordAndAnnounce c sig rs).checkpointStep c completed).closingStep completed =
      (s.setLane { s.lane.announced { c with stage := .closed, signature := sig } (s.newRecord c sig rs) s.voteWindow with
        lastClosed := c.cycle }).handBoth (s.announcement c sig) := by
  rw [recordAndAnnounce_votes hv, handBoth_eq, testVote_waits (by exact hmiss), checkpointStep_skips hck,
    closingStep_releases (by simp [hrole]), releaseHold_eq (c := { c with vote := .running, signature := sig }) rfl,
    if_pos rfl, handBoth_eq]
  rfl

/-- The steps of a close at an ACTIVE donor that begins its closing pass (R131). -/
theorem closeSteps_donor (hv : voting s.lane.state = true) (hrole : s.xfer.role = .donor) (hck : c.withCheckpoint = false)
    (hmiss : s.lane.peer1.missing = true ∨ s.lane.peer2.missing = true) (howed : s.xfer.owed.length ≤ 16) :
    ((s.recordAndAnnounce c sig rs).checkpointStep c true).closingStep true =
      ((s.setLane (s.lane.announced { c with stage := .closingPass, signature := sig } (s.newRecord c sig rs)
        s.voteWindow)).setXfer { s.xfer with closing := s.xfer.owed, plan := [], resend := [], caughtUp := false }).handBoth
          (s.announcement c sig) := by
  rw [recordAndAnnounce_votes hv, handBoth_eq, testVote_waits (by exact hmiss), checkpointStep_skips (.inl hck), handBoth_eq]
  exact if_pos ⟨hrole, rfl, howed⟩

/-- The end of a pass that has signed every page, outside FORMING and ACTIVE. -/
theorem endPass_signed_silent (hc : s.lane.close = some c) :
    s.endPass none false =
      ((s.recordAndAnnounce c (some (s.ownSignature c.cycle)) (some (regionSignatures s.sign.results))).checkpointStep c
        true).closingStep true := by
  unfold State.endPass
  simp only [hc]
  rfl

/-- The part with its abstain count at `n`. -/
def State.abstained (s : State) (n : Nat) : State := s.setLane { s.lane with abstain := n }

theorem abstained_setLane (n : Nat) (l : LaneUnit) : (s.abstained n).setLane l = s.setLane l := rfl

theorem endPass_signed_votes (hc : s.lane.close = some c) :
    s.endPass none true =
      (((s.abstained 0).recordAndAnnounce c (some (s.ownSignature c.cycle))
        (some (regionSignatures s.sign.results))).checkpointStep c true).closingStep true := by
  unfold State.endPass
  simp only [hc]
  rfl

theorem endPass_stopped (hc : s.lane.close = some c) (why : StopCause) (fa : Bool) :
    s.endPass (some why) fa =
      (((if fa = true then (s.dropSigning why).abstains else s.dropSigning why).recordAndAnnounce c none none).checkpointStep c
        false).closingStep false := by
  unfold State.endPass
  simp only [hc]
  rfl

/-- A lane below the limit abstains and stays (R57, R58). -/
theorem abstains_below (hlow : s.pressure.p + 16 < 512) (h : min 7 (s.lane.abstain + 1) < s.abstainLimit) :
    s.abstains = (s.raised .abstained 16).abstained (min 7 (s.lane.abstain + 1)) := by
  have hraise : s.raise .abstained FaultKind.abstained.weight = s.raised .abstained 16 := raise_low hlow
  unfold State.abstains
  rw [hraise]
  exact if_neg fun hx => Nat.not_le.mpr h hx.1

/-- A lane at the limit withdraws itself (R58). -/
theorem abstains_limit (hlow : s.pressure.p + 16 < 512) (h : s.abstainLimit ≤ min 7 (s.lane.abstain + 1))
    (hv : voting s.lane.state = true) :
    s.abstains = ((s.raised .abstained 16).abstained (min 7 (s.lane.abstain + 1))).selfWithdraw := by
  have hraise : s.raise .abstained FaultKind.abstained.weight = s.raised .abstained 16 := raise_low hlow
  unfold State.abstains
  rw [hraise]
  exact if_pos ⟨h, hv⟩

end Steps

section Event

variable {s u : State}

/-- A signature grant ends its event where it leaves the part settled. -/
theorem exec_signature (hpass : s.passWaits = true) (hpick : s.pick = some .signature)
    (hg : s.countNonHost.signatureGrant [] = u) (hu : u.settled) (hr : u.readsDone) :
    exec (.signature []) s = .next u.closeEvent := by
  refine (if_pos ⟨hpass, hpick⟩).trans (congrArg Host.Outcome.next ?_)
  exact event_of_settle (f := fun t => t.countNonHost.signatureGrant []) (by rw [hg]; exact hu) hu hr

/-- The lines follow, as far as they are concerned. -/
theorem exec_signature_quiet (hready : s.ready) (hpass : s.passWaits = true) (hpick : s.pick = some .signature)
    (hg : s.countNonHost.signatureGrant [] = u) (hu : u.still) (hends : u.EndsAs s) :
    exec (.signature []) s = .next u.withAlert ∧
      (u.alertCond = s.alertCond → exec (.signature []) s = .next u) := by
  obtain ⟨-, hout, hreads⟩ := hready
  have hexec := exec_signature hpass hpick hg (settled_of_still hu) (hends.readsDone hreads)
  rw [closeEvent_of_quiet (hends.quiet hout.2)] at hexec
  exact ⟨hexec.trans (congrArg Host.Outcome.next (hends.drivePins_eq hout.1)), fun ha =>
    hexec.trans (congrArg Host.Outcome.next (hends.drivePins_same hout.1 ha))⟩

/-- A part that neither donates nor receives stands still behind the end of a pass. -/
theorem still_passed (hs : s.still) (hrole : u.xfer.role = .none) (hclose : u.closeStands = true)
    (hflight : u.flightStands = true) (hrest : u.rest = s.rest) (hqueue : u.queue = s.queue) (hcomm : u.comm = s.comm)
    (herase : u.eraseStands = true) : u.still := by
  obtain ⟨-, hrs, -, -, -, hrun, -⟩ := hs
  have hhigh : u.highMark = s.highMark := by unfold State.highMark State.param; rw [hcomm]
  have hlow : u.lowMark = s.lowMark := by unfold State.lowMark State.param; rw [hcomm]
  refine ⟨hclose, by rw [hrest]; exact hrs, hflight, ?_, ?_, ?_, herase⟩
  · simp [State.donorStands, hrole]
  · simp [State.checkStands, hrole]
  · rw [← hrun]; simp only [State.runStands, hhigh, hlow, hqueue]

theorem flightStands_congr (h : s.flightStands = true) (hpages : u.pages = s.pages) (hckpt : u.ckpt = s.ckpt)
    (hrest : u.rest = s.rest) : u.flightStands = true := by
  have hpage : ∀ q, u.page q = s.page q := fun q => by rw [State.page, State.page, hpages]
  exact flightStands_of_pages h hckpt hrest (fun q => by rw [hpage]) (fun q _ => hpage q)

theorem eraseStands_congr (h : s.eraseStands = true) (hckpt : u.ckpt = s.ckpt) : u.eraseStands = true := by
  rw [← h, State.eraseStands, State.eraseStands, hckpt]

/-- So does a donor in its closing pass, with pages left to send. -/
theorem still_closingPass {c : Close} (hs : s.still) (hrole : u.xfer.role = .donor) (hclosing : u.xfer.closing ≠ [])
    (hc : u.lane.close = some c) (hstage : c.stage = .closingPass) (hflight : u.flightStands = true) (hrest : u.rest = s.rest)
    (hqueue : u.queue = s.queue) (hcomm : u.comm = s.comm) (herase : u.eraseStands = true) : u.still := by
  obtain ⟨-, hrs, -, -, -, hrun, -⟩ := hs
  have hhigh : u.highMark = s.highMark := by unfold State.highMark State.param; rw [hcomm]
  have hlow : u.lowMark = s.lowMark := by unfold State.lowMark State.param; rw [hcomm]
  refine ⟨?_, by rw [hrest]; exact hrs, hflight, ?_, ?_, ?_, herase⟩
  · simp [State.closeStands, hc, hstage, hclosing]
  · simp [State.donorStands, State.closingPassRuns, hc, hstage]
  · simp [State.checkStands, hrole]
  · rw [← hrun]; simp only [State.runStands, hhigh, hlow, hqueue]

end Event

end Sys2Proof.Machine
end

section
/-! What else the end of a pass can set off: a withdrawal at the abstain limit, a decision at once, a snapshot, and the hand-on of
an uncorrectable cell (R42, R50, R58, R77, R83, R100). -/

namespace Sys2Proof.Machine

/-! ### The withdrawal (R58, R85, R147) -/

section Withdrawal

variable {s : State}

theorem pressure_raiseCore (k : FaultKind) (w : Nat) : (s.raiseCore k w).pressure.p = pressureAfter s.pressure.p w := by
  unfold State.raiseCore State.addPressure
  dsimp only
  split_ifs <;> rfl

theorem raiseCore_low {k : FaultKind} {w : Nat} (h : s.pressure.p + w < 512) : s.raiseCore k w = s.raised k w := by
  rw [← raise_low h, State.raise, if_neg]
  rintro ⟨-, htop, -⟩
  rw [pressure_raiseCore] at htop
  have : pressureAfter s.pressure.p w ≤ s.pressure.p + w := Nat.min_le_right _ _
  have : Config.pressureWithdraw = 768 := rfl
  omega

/-- The drop of a vote concerns an undecided one alone (R84). -/
theorem dropVote_of_decided (h : ∀ c, s.lane.close = some c → c.vote ≠ .running) : s.dropVote = s := by
  unfold State.dropVote
  cases hc : s.lane.close with
  | none => rfl
  | some c => exact if_neg (h c hc)

/-- A peer with both slots empty (R76). -/
def Peer.emptied (p : Peer) : Peer := { p with pending := none, early := none }

/-- The lane moved to another state: slots kept among FORMING and ACTIVE alone, the permit mark outside ACTIVE alone (R76, R89). -/
def LaneUnit.moved (l : LaneUnit) (x : LaneState) : LaneUnit :=
  { l with
    state := x
    permitMark := if l.state = .active ∨ x = .active then false else l.permitMark
    peer1 := if voting x = true then l.peer1 else l.peer1.emptied
    peer2 := if voting x = true then l.peer2 else l.peer2.emptied }

/-- A move of the lane in a part that does not donate and has no undecided vote. -/
theorem shiftLane_eq {x : LaneState} (hne : s.lane.state ≠ x) (hrole : s.xfer.role = .none)
    (hvote : ∀ c, s.lane.close = some c → c.vote ≠ .running) :
    s.shiftLane x = (s.setLane (s.lane.moved x)).setNotes { s.notes with moved := true } := by
  have hempty : ∀ t : State, t.emptySlots.xfer = t.xfer := fun _ => rfl
  unfold State.shiftLane LaneUnit.moved
  by_cases hx : voting x = true
  · simp only [hne, hx, if_true, if_false, Bool.not_true, Bool.and_false, Bool.false_eq_true]
    by_cases ha : s.lane.state = .active ∨ x = .active
    · simp only [ha, if_true, State.setLane_xfer, State.setNotes_xfer, hrole, reduceCtorEq, and_false, if_false]
      rfl
    · simp only [ha, if_false, State.setLane_xfer, State.setNotes_xfer, hrole, reduceCtorEq, and_false]
  · have hx' : voting x = false := Bool.not_eq_true _ ▸ hx
    simp only [hne, hx', if_false, Bool.false_eq_true]
    rw [dropVote_of_decided (by exact hvote), ite_self]
    by_cases ha : s.lane.state = .active ∨ x = .active
    · simp only [ha, if_true, State.setLane_xfer, State.setNotes_xfer, hempty, hrole, reduceCtorEq, and_false, if_false]
      rfl
    · simp only [ha, if_false, State.setLane_xfer, State.setNotes_xfer, hempty, hrole, reduceCtorEq, and_false]
      rfl

/-- A withdrawal of a lane that votes: EXCLUDED, with a CLOSING frame and STATE frames owed (R50, R70, R147). -/
theorem selfWithdraw_eq (hv : voting s.lane.state = true) (hrole : s.xfer.role = .none)
    (hvote : ∀ c, s.lane.close = some c → c.vote ≠ .running) (hlow : s.pressure.p + 0 < 512) :
    s.selfWithdraw =
      ((s.raised .selfWithdrawn 0).setLane (s.lane.moved .excluded)).setNotes { moved := true, withdrawn := true } := by
  have hne : s.lane.state ≠ .excluded := by
    intro h
    rw [h] at hv
    exact absurd hv (by decide)
  have hraise : s.raiseCore .selfWithdrawn FaultKind.selfWithdrawn.weight = s.raised .selfWithdrawn 0 := raiseCore_low hlow
  unfold State.selfWithdraw
  rw [hraise]
  exact shiftLane_eq (s := (s.raised .selfWithdrawn 0).setNotes { s.notes with withdrawn := true }) hne hrole hvote

theorem withdrawnFrame_eq {r : CycleRecord} (h : s.lane.history.getLast? = some r) :
    s.withdrawnFrame = .closing .selfWithdrawn r.cycle r.signature r.peer1 r.peer2 r.outcome := by
  simp only [State.withdrawnFrame, h]

/-- An event that has withdrawn the lane ends with its CLOSING frame and its STATE frames. -/
theorem closeEvent_of_withdrawn (hq : s.quiet) (hprim : s.faults.primary = none) :
    (s.setNotes { moved := true, withdrawn := true }).closeEvent =
      ((s.framed s.withdrawnFrame).handBoth (.state s.lane.state s.lane.lastClosed)).drivePins := by
  have howed : (s.setNotes { moved := true, withdrawn := true }).frameOwed =
      (s.framed s.withdrawnFrame).setNotes Notes.ofMove := by
    refine (if_pos rfl).trans ?_
    rw [placeFrame_empty _ (by exact hprim)]
    rfl
  have hend := closeEvent_of_moved (s := s.framed s.withdrawnFrame) hq
  rw [State.closeEvent, howed]
  exact hend

end Withdrawal

/-! ### The decision at once (R77, R80, R81, R83) -/

section Decision

variable {s t : State} {x : LaneState} {n : Nat}

/-- `t` is `s` but for what a decision changes beside the close: the lane is in state `x`, and the peers, the permit mark, the
fault store, P with its pace, the ports and the note of a move may have changed; `n` more may be added to P. -/
structure State.Decided (t s : State) (x : LaneState) (n : Nat) : Prop where
  state : t.lane.state = x
  close : t.lane.close = s.lane.close
  window : t.lane.window = s.lane.window
  lastClosed : t.lane.lastClosed = s.lane.lastClosed
  abstain : t.lane.abstain = s.lane.abstain
  history : t.lane.history = s.lane.history
  room : t.pressure.p + n < 512
  withdrawn : t.notes.withdrawn = s.notes.withdrawn
  phase : t.phase = s.phase
  link : t.link = s.link
  image : t.image = s.image
  pages : t.pages = s.pages
  queue : t.queue = s.queue
  journal : t.journal = s.journal
  sign : t.sign = s.sign
  ckpt : t.ckpt = s.ckpt
  rest : t.rest = s.rest
  xfer : t.xfer = s.xfer
  comm : t.comm = s.comm

namespace State.Decided

theorem refl (s : State) (h : s.pressure.p + n < 512) : s.Decided s s.lane.state n :=
  { room := h, state := rfl, close := rfl, window := rfl, lastClosed := rfl, abstain := rfl, history := rfl, withdrawn := rfl
    phase := rfl, link := rfl, image := rfl, pages := rfl, queue := rfl, journal := rfl, sign := rfl, ckpt := rfl
    rest := rfl, xfer := rfl, comm := rfl }

variable (h : t.Decided s x n)
include h

theorem ite {u : State} {p : Prop} [Decidable p] (hu : u.Decided s x n) : (if p then u else t).Decided s x n := by
  split_ifs
  · exact hu
  · exact h

theorem mapPeer (p : PortId) (f : Peer → Peer) : (t.mapPeer p f).Decided s x n := by
  cases p <;> exact { h with }

theorem mapPeers (f : Peer → Peer) : (t.mapPeers f).Decided s x n := (h.mapPeer .one f).mapPeer .two f

theorem setPermitMark (b : Bool) : (t.setLane { t.lane with permitMark := b }).Decided s x n := { h with }

theorem placeFrame (f : FaultFrame) : (t.placeFrame f).Decided s x n := by
  unfold State.placeFrame
  split
  · exact { h with }
  · exact { h with }
  · split_ifs <;> exact { h with }

theorem raise {k : FaultKind} (hk : k.weight ≤ n) : (t.raise k k.weight).Decided s x (n - k.weight) := by
  have hroom := h.room
  rw [raise_low (by omega)]
  have hp : (t.raised k k.weight).pressure.p + (n - k.weight) < 512 := by
    change t.pressure.p + k.weight + (n - k.weight) < 512
    omega
  exact { h with room := hp }

theorem moveLane (y : LaneState) (hrole : s.xfer.role = .none) (hvote : ∀ c, s.lane.close = some c → c.vote ≠ .running) :
    (t.moveLane y).Decided s y n := by
  by_cases hne : t.lane.state = y
  · rw [State.moveLane, if_pos hne]
    exact { h with state := hne }
  · have hshift := shiftLane_eq hne (by rw [h.xfer, hrole]) (fun c hc => hvote c (h.close ▸ hc))
    have hmoved : (t.shiftLane y).Decided s y n := by
      rw [hshift]
      exact { h with state := rfl }
    have hlow : ¬ Config.pressureWithdraw ≤ (t.shiftLane y).pressure.p := by
      have := hmoved.room
      have : Config.pressureWithdraw = 768 := rfl
      omega
    have hstays : t.moveLane y = t.shiftLane y := (if_neg hne).trans (if_neg fun hx => hlow hx.2)
    rw [hstays]
    exact hmoved

end State.Decided

/-- An outcome raises a kind of weight 128 at most. -/
theorem weight_outcomeKind {out : VoteOutcome} {k : FaultKind} (h : outcomeKind out = some k) : k.weight ≤ 128 := by
  cases out <;> simp only [outcomeKind, reduceCtorEq, Option.some.injEq] at h <;> subst h <;> decide

theorem State.Decided.raiseDecision (h : t.Decided s x 128) (out : VoteOutcome) : (t.raiseDecision out 0).Decided s x 0 := by
  have hnone : t.Decided s x 0 := { h with room := Nat.lt_of_le_of_lt (Nat.le_add_right _ _) h.room }
  have hzero : t.raiseTimes .peerSilent FaultKind.peerSilent.weight 0 = t := rfl
  unfold State.raiseDecision
  rw [hzero]
  cases hk : outcomeKind out with
  | none =>
    dsimp only
    split_ifs
    · exact hnone.placeFrame _
    · exact hnone.placeFrame _
    · exact hnone
  | some k =>
    have hraise := h.raise (weight_outcomeKind hk)
    exact State.Decided.placeFrame { hraise with room := Nat.lt_of_le_of_lt (Nat.le_add_right _ _) hraise.room } _

/-- The lane with a vote decided, before anything else follows (R83 step 1). -/
def LaneUnit.voted (l : LaneUnit) (c : Close) (out : VoteOutcome) : LaneUnit :=
  { l with
    window := none
    close := some { c with vote := .settled }
    history := mapLast (fun r => { r with
      outcome := out, peer1 := decidedNote false false l.peer1 r.peer1
      peer2 := decidedNote false false l.peer2 r.peer2 }) l.history }

/-- The part with its vote decided. -/
def State.voted (s : State) (c : Close) (out : VoteOutcome) : State := s.setLane (s.lane.voted c out)

theorem voted_setLane_setPorts (l : LaneUnit) (p : Ports) (c : Close) (out : VoteOutcome) :
    ((s.setLane l).setPorts p).voted c out = (s.setLane (l.voted c out)).setPorts p := rfl

theorem writeDecision_decided {c : Close} (out : VoteOutcome) (h : s.pressure.p + n < 512) :
    (s.writeDecision c false none out).Decided (s.voted c out) s.lane.state n := by
  have hbase : (s.voted c out).Decided (s.voted c out) s.lane.state n := .refl _ h
  change (if out = .majority ∧ s.lane.state = .active then (s.voted c out).mapPeers (Peer.exclude c.signature c.cycle)
    else s.voted c out).Decided (s.voted c out) s.lane.state n
  split_ifs
  · exact hbase.mapPeers _
  · exact hbase

/-- A decision in FORMING or ACTIVE that no STATE and no expiry brought. -/
theorem decideVote_decided {c : Close} (hc : s.lane.close = some c) (hstage : c.stage ≠ .closed) (hrole : s.xfer.role = .none)
    (hv : voting s.lane.state = true) (hlow : s.pressure.p + 128 < 512) (out : VoteOutcome) :
    (s.decideVote false none out).Decided (s.voted c out)
      (if s.lane.state = .active then afterActive out else afterForming out) 0 := by
  have hwrite := writeDecision_decided (s := s) (c := c) (n := 128) out hlow
  have hvote : ∀ d, (s.voted c out).lane.close = some d → d.vote ≠ .running := fun d hd => by
    obtain rfl := Option.some.inj hd
    exact VoteStage.noConfusion
  have hmove := hwrite.moveLane
    (if s.lane.state = .active then afterActive out else if s.lane.state = .forming then afterForming out else s.lane.state)
    hrole hvote
  have hraise := hmove.raiseDecision out
  have hforming : (if s.lane.state = .active then afterActive out
      else if s.lane.state = .forming then afterForming out else s.lane.state) =
      if s.lane.state = .active then afterActive out else afterForming out := by
    rcases voting_iff.mp hv with h | h <;> simp [h]
  rw [hforming] at hraise
  have hend : ∀ t : State,
      t.Decided (s.voted c out) (if s.lane.state = .active then afterActive out else afterForming out) 0 →
      ((t.mapPeers Peer.consume).retireClose).Decided (s.voted c out)
        (if s.lane.state = .active then afterActive out else afterForming out) 0 := fun t ht => by
    have hpeers := ht.mapPeers Peer.consume
    have hstays : (t.mapPeers Peer.consume).retireClose = t.mapPeers Peer.consume := by
      unfold State.retireClose
      rw [hpeers.close]
      exact if_neg fun hx => hstage hx.1
    rw [hstays]
    exact hpeers
  unfold State.decideVote
  simp only [hc, hforming]
  exact hend _ (hraise.ite (hraise.setPermitMark _))

end Decision


end Sys2Proof.Machine
end

section
/-! The ends of a pass that decide its vote at once, open a snapshot, or hand on an uncorrectable cell (R42, R60, R77, R100). -/

namespace Sys2Proof.Machine

/-! ### The newest cycle record (R61) -/

theorem mapLast_append {α : Type} (f : α → α) (l : List α) (a : α) : mapLast f (l ++ [a]) = l ++ [f a] := by
  induction l with
  | nil => rfl
  | cons b l ih =>
    cases l with
    | nil => rfl
    | cons d l => exact congrArg (b :: ·) ih

theorem mapLast_addHistory (f : CycleRecord → CycleRecord) (h : List CycleRecord) (r : CycleRecord) :
    mapLast f (addHistory h r) = addHistory h (f r) := by
  unfold addHistory
  split_ifs <;> exact mapLast_append ..

theorem getLast_addHistory (h : List CycleRecord) (r : CycleRecord) : (addHistory h r).getLast? = some r := by
  unfold addHistory
  split_ifs <;> exact List.getLast?_concat

/-! ### The decision at once (R77) -/

section Decision

variable {s : State} {c : Close} {sig : Option Word} {rs : Option (List (Nat × Word))}

/-- The part once a close's record has been made and announced. -/
def State.announcing (s : State) (c : Close) (sig : Option Word) (rs : Option (List (Nat × Word))) : State :=
  (s.setLane (s.lane.announced { c with signature := sig } (s.newRecord c sig rs) s.voteWindow)).handBoth (s.announcement c sig)

theorem announcing_eq (s : State) (c : Close) (sig : Option Word) (rs : Option (List (Nat × Word))) :
    ∃ p, s.announcing c sig rs =
      (s.setLane (s.lane.announced { c with signature := sig } (s.newRecord c sig rs) s.voteWindow)).setPorts p :=
  ⟨_, handBoth_eq ..⟩

/-- The steps of a close in FORMING or ACTIVE that awaits no peer: its vote is decided, and it is over. -/
theorem closeSteps_decided (hv : voting s.lane.state = true) (hrole : s.xfer.role = .none) (hck : c.withCheckpoint = false)
    (hstage : c.stage ≠ .closed) (hone : s.lane.peer1.missing = false) (htwo : s.lane.peer2.missing = false)
    (hlow : s.pressure.p + 128 < 512) :
    let out := voteOutcome (decide (s.lane.state = .active)) sig (s.lane.peer1.voteFor c.cycle) (s.lane.peer2.voteFor c.cycle)
    ∃ d : State, d.Decided ((s.announcing c sig rs).voted { c with vote := .running, signature := sig } out)
        (if s.lane.state = .active then afterActive out else afterForming out) 0 ∧
      ((s.recordAndAnnounce c sig rs).checkpointStep c true).closingStep true =
        d.setLane { d.lane with lastClosed := c.cycle, close := none } := by
  intro out
  obtain ⟨w, hw⟩ : ∃ w, w = s.announcing c sig rs := ⟨_, rfl⟩
  have hports : w = ((s.setLane (s.lane.announced { c with signature := sig } (s.newRecord c sig rs) s.voteWindow)).setPorts
      w.ports) := by
    rw [hw, State.announcing, handBoth_eq]
    rfl
  have hclose : w.lane.close = some { c with vote := .running, signature := sig } := by rw [hports]; rfl
  have hout : w.outcomeNow { c with vote := .running, signature := sig } = out := by rw [hports]; rfl
  have hcomplete : w.voteComplete = true := by
    rw [hports]
    exact (congrArg₂ (fun a b => !a && !b) hone htwo)
  have htest : w.testVote = w.decideVote false none out := by
    unfold State.testVote
    rw [hclose]
    exact (if_pos ⟨rfl, hcomplete⟩).trans (congrArg (w.decideVote false none) hout)
  have hdec := decideVote_decided (s := w) hclose hstage (by rw [hports]; exact hrole) (by rw [hports]; exact hv)
    (by rw [hports]; exact hlow) out
  have hstate : w.lane.state = s.lane.state := by rw [hports]; rfl
  rw [hstate] at hdec
  have hd : (w.decideVote false none out).closingStep true =
      (w.decideVote false none out).setLane { (w.decideVote false none out).lane with
        lastClosed := c.cycle, close := none } := by
    have hxfer : (w.decideVote false none out).xfer = s.xfer := hdec.xfer.trans (by rw [hports]; rfl)
    rw [closingStep_releases (by rw [hxfer, hrole]; exact Role.noConfusion), releaseHold_eq hdec.close, if_neg (by simp)]
  refine ⟨_, hw ▸ hdec, ?_⟩
  rw [recordAndAnnounce_votes hv, checkpointStep_skips (.inl hck)]
  rw [hw] at htest hd
  exact (congrArg (State.closingStep · true) htest).trans hd

end Decision

/-! ### What the end of an event leaves alone -/

theorem closeEvent_told {s : State} (ha : s.link.answer = none) (hw : s.notes.withdrawn = false) :
    ∃ p n l, s.closeEvent = ((s.setPorts p).setNotes n).setPins l := by
  have howed : s.frameOwed = s := if_neg (by simp [hw])
  have hbuild : s.buildReply = s := by simp only [State.buildReply, ha]
  rw [State.closeEvent, howed, hbuild, State.tellState]
  split_ifs
  · rw [handBoth_eq]
    exact ⟨_, _, _, rfl⟩
  · exact ⟨s.ports, _, _, rfl⟩

/-! ### The snapshot (R30, R60 step 2, R100) -/

section Snapshot

variable {s : State} {c : Close} {sig : Option Word} {rs : Option (List (Nat × Word))}

/-- A page as a snapshot takes it. -/
def PageRec.snapshot (r : PageRec) : PageRec := { r with uncaptured := true, written := false }

/-- The journal with a start sequence noted (R30). -/
def Journal.opened (j : Journal) : Journal :=
  if j.state = .broken then { j with state := .pendingBase, records := [], base := none, start := some j.next }
  else { j with start := some j.next }

/-- The engine at the start of a snapshot for cycle `n` of `count` pages. -/
def Checkpoint.opened (k : Checkpoint) (n : Half) (start count : Nat) : Checkpoint :=
  { (k.putSlot k.inactive { state := .writing, generation := some (k.highest + 1), cycle := some n, start := some start }) with
    state := .capturing, highest := k.highest + 1, buffer := [], cycle := some n, start := some start, captured := 0
    toCapture := count, target := k.inactive, begun := false, asked := true }

theorem journalOpens_eq (s : State) : s.journalOpens = s.setJournal s.journal.opened := by
  unfold State.journalOpens Journal.opened
  dsimp only
  split_ifs <;> rfl

theorem openSnapshot_eq (n : Half) (hhigh : s.ckpt.highest ≠ BitVec.allOnes 32) (hop : s.ctl.op = none) :
    s.openSnapshot n = { s with
      pages := (s.mapPages PageRec.snapshot s.checkpointedPages).pages
      journal := s.journal.opened
      ckpt := s.ckpt.opened n s.journal.next s.checkpointedPages.length
      ctl := { s.ctl with op := some (.programBegin s.ckpt.inactive
        { generation := s.ckpt.highest + 1, cycle := n, start := s.journal.next }) } } := by
  have hpages : s.mapPages (fun r => { r with uncaptured := true, written := false }) s.checkpointedPages =
      s.setPages (s.mapPages PageRec.snapshot s.checkpointedPages).pages := mapPages_eq _ _ _
  have hgen : ∀ t : State, t.ckpt = s.ckpt → t.nextGeneration = s.ckpt.highest + 1 := fun t ht => by
    rw [State.nextGeneration, ht, if_neg hhigh]
  unfold State.openSnapshot
  dsimp only
  rw [hpages, journalOpens_eq, hgen _ (by rfl), if_neg (by exact hhigh),
    ask_of_free (by exact hop) (by simp)]
  rfl

/-- The steps of a close with checkpoint outside FORMING and ACTIVE. -/
theorem closeSteps_snapshot (hv : voting s.lane.state = false) (hrole : s.xfer.role = .none) (hck : c.withCheckpoint = true)
    (hvote : c.vote = .notStarted) (hidle : s.ckpt.state = .idle) (hslot : (s.ckpt.slot s.ckpt.inactive).state = .erased)
    (hhigh : s.ckpt.highest ≠ BitVec.allOnes 32) (hop : s.ctl.op = none) :
    ((s.recordAndAnnounce c sig rs).checkpointStep c true).closingStep true =
      (s.openSnapshot c.cycle).setLane (s.lane.closed c { s.newRecord c sig rs with checkpoint := true }) := by
  obtain ⟨l, hl⟩ : ∃ l, l = s.lane.recorded { c with signature := sig } (s.newRecord c sig rs) := ⟨_, rfl⟩
  have hopen : (s.setLane l).openSnapshot c.cycle = (s.openSnapshot c.cycle).setLane l := by
    rw [openSnapshot_eq _ (by exact hhigh) (by exact hop), openSnapshot_eq _ hhigh hop]
    exact congrArg (fun g => State.setLane { s with
      pages := g
      journal := s.journal.opened
      ckpt := s.ckpt.opened c.cycle s.journal.next s.checkpointedPages.length
      ctl := { s.ctl with op := some (.programBegin s.ckpt.inactive
        { generation := s.ckpt.highest + 1, cycle := c.cycle, start := s.journal.next }) } } l)
      (pages_mapPages_congr (s := s.setLane l) (t := s) rfl PageRec.snapshot s.checkpointedPages)
  have hstep : (s.setLane l).checkpointStep c true = ((s.openSnapshot c.cycle).setLane { l with
      history := mapLast (fun r => { r with checkpoint := true }) l.history }) := by
    unfold State.checkpointStep
    refine (if_pos (by simp [hck, hidle, hslot])).trans ?_
    rw [hopen]
    rfl
  have hrole' : (s.openSnapshot c.cycle).xfer.role ≠ .donor := by
    rw [openSnapshot_eq _ hhigh hop]
    exact fun h => Role.noConfusion (hrole.symm.trans h)
  rw [recordAndAnnounce_silent hv, ← hl, hstep, hl, closingStep_releases (by exact hrole'),
    releaseHold_eq (c := { c with signature := sig }) rfl, if_neg (by simp [hvote])]
  simp only [LaneUnit.recorded, mapLast_addHistory]
  rfl

/-- A snapshot stands where every page that is SUSPECT waits for its restore and some page is set. -/
theorem flightStands_snapshot {u : State} {n : Half} {start count : Nat}
    (hpage : ∀ q, u.page q = if q < 256 ∧ s.isCheckpointed q = true then (s.page q).snapshot else s.page q)
    (hnone : s.uncapturedPages = [])
    (hres : ∀ q, s.isCheckpointed q = true → (s.page q).state = .suspect → q ∈ s.rest.list)
    (hset : ∃ q, q < 256 ∧ s.isCheckpointed q = true ∧ (s.page q).state ≠ .unset) (hrest : u.rest = s.rest)
    (hckpt : u.ckpt = s.ckpt.opened n start count) : u.flightStands = true := by
  have hmem : ∀ q, q ∈ u.uncapturedPages ↔ q < 256 ∧ s.isCheckpointed q = true := fun q => by
    have hclear : (s.page q).uncaptured = false := by
      rw [← Bool.not_eq_true, ← mem_uncapturedPages, hnone]
      exact List.not_mem_nil
    rw [mem_uncapturedPages, hpage]
    split_ifs with h
    · exact ⟨fun _ => h, fun _ => rfl⟩
    · simp [h, hclear]
  have hstate : ∀ q, (u.page q).state = (s.page q).state := fun q => by
    rw [hpage]
    split_ifs <;> rfl
  have hunrest : u.uncapturedPages.any u.unrestorable = false := by
    rw [List.any_eq_false]
    intro q hq
    have := hres q ((hmem q).mp hq).2
    simp only [State.unrestorable, hstate, hrest]
    simpa using this
  have hany : u.uncapturedPages.any (fun p => decide ((u.page p).state ≠ .unset)) = true := by
    obtain ⟨q, hq, hcq, hne⟩ := hset
    exact List.any_eq_true.mpr ⟨q, (hmem q).mpr ⟨hq, hcq⟩, by simpa [hstate] using hne⟩
  have hcap : u.ckpt.state = .capturing ∧ u.ckpt.begun = false := by
    rw [hckpt]
    exact ⟨rfl, rfl⟩
  simp only [State.flightStands, hcap.1, hcap.2, hunrest, hany, Bool.not_false, Bool.or_true, Bool.true_or, Bool.and_self]

end Snapshot

/-! ### One uncorrectable cell (R5, R42, R44) -/

theorem handOn_one {s : State} {p o : Nat} {r : Scan} (hbad : r.bad = [o]) (hcorr : r.corrected = 0)
    (hall : (s.page p).suspectAll = false) (hl : p * 64 + o ∉ s.suspects) (hlen : s.suspects.length < 32)
    (hrole : s.xfer.role = .none) (hu : (s.page p).state ≠ .unset) (hr : (s.page p).state ≠ .restoring)
    (hauto : s.isAutoRestore p = false) (hprim : s.faults.primary = none) (hlow : s.pressure.p + 64 < 512) :
    ∃ g, s.onlyPage g p (fun x => { x with state := .suspect }) ∧
      s.handOn p r =
        (((s.setSuspects (s.suspects ++ [p * 64 + o])).setPages g).raised .uncorrectable 64).framed
          (.patrol .uncorrectable p 0 [o] s.patrol.round) := by
  obtain ⟨g, hmake, hg⟩ := makeSuspect_eq (s := s.setSuspects (s.suspects ++ [p * 64 + o])) (p := p) hrole hu hr
  have hoffer : offerSuspects p [o] s = (s.setSuspects (s.suspects ++ [p * 64 + o]), false) := by
    simp only [offerSuspects, offerSuspect_room hall hl hlen, Bool.or_false]
  have hraise : ((s.setSuspects (s.suspects ++ [p * 64 + o])).setPages g).raiseTimes .uncorrectable
      FaultKind.uncorrectable.weight 1 =
      ((s.setSuspects (s.suspects ++ [p * 64 + o])).setPages g).raised .uncorrectable 64 := raise_low hlow
  have hauto' : ((s.setSuspects (s.suspects ++ [p * 64 + o])).setPages g).isAutoRestore p = false := hauto
  refine ⟨g, hg, ?_⟩
  unfold State.handOn
  simp only [hbad, hcorr, hoffer, hmake, hauto', hraise, List.length_singleton, Bool.false_eq_true, if_false, if_true,
    and_false, reduceCtorEq]
  exact placeFrame_empty _ hprim

end Sys2Proof.Machine
end

section
/-! SIGNATURE as a command (R56 to R60, R77, R100, R131). -/

namespace Sys2Proof.Machine

section Grant

variable {s : State} {c : Close} {st : SignStep} {rest : List SignStep}

/-- What a page's cells hold. -/
abbrev State.pageValues (s : State) (p : Nat) : List Word := (List.range 64).map (fun o => (s.cell (p * 64 + o)).value)

/-- A grant on a sound page feeds it, and the last page ends the pass. -/
theorem signatureGrant_sound (hc : s.lane.close = some c) (ht : s.sign.todo = st :: rest) (hr : s.readable st.page = true)
    (h : ∀ o, o < 64 → (s.cell (st.page * 64 + o)).damage = .intact) :
    s.signatureGrant [] =
      if rest = [] then
        (s.setSign (s.fedSign c.cycle st rest (s.pageValues st.page))).endPass none (voting s.lane.state)
      else s.setSign (s.fedSign c.cycle st rest (s.pageValues st.page)) := by
  have htwo : ∀ o, o < 64 → (s.cell (st.page * 64 + o)).damage ≠ .twoBits := fun o ho => by simp [h o ho]
  have hone : ∀ o, o < 64 → (s.cell (st.page * 64 + o)).damage ≠ .oneBit := fun o ho => by simp [h o ho]
  have hgrant := signatureGrant_fed hc ht hr htwo
  rw [pageScan_state hone, offsetsWith_nil hone] at hgrant
  exact hgrant

variable (hstill : s.still) (hready : s.ready) (hpass : s.passWaits = true) (hpick : s.pick = some .signature)
  (hc : s.lane.close = some c) (ht : s.sign.todo = st :: rest) (hr : s.readable st.page = true)
include hstill hready hpass hpick hc ht hr

/-- A sound page before the last only feeds the pair. -/
theorem exec_signature_feeds (h : ∀ o, o < 64 → (s.cell (st.page * 64 + o)).damage = .intact) (hrest : rest ≠ []) :
    exec (.signature []) s =
      .next (s.countNonHost.setSign (s.fedSign c.cycle st rest (s.pageValues st.page))) := by
  have hg := signatureGrant_sound (s := s.countNonHost) hc ht hr h
  rw [if_neg hrest] at hg
  exact (exec_signature_quiet hready hpass hpick hg (by exact hstill) ⟨rfl, rfl, rfl, rfl, rfl⟩).2 rfl

/-- Cells that check corrected are rewritten, fed and counted. -/
theorem exec_signature_corrects (htwo : ∀ o, o < 64 → (s.cell (st.page * 64 + o)).damage ≠ .twoBits) (hrest : rest ≠ [])
    (hne : ¬ ∀ o, o < 64 → (s.cell (st.page * 64 + o)).damage = .intact)
    (hlow : s.pressure.p + 4 * (s.offsetsWith st.page .oneBit).length < 512) :
    exec (.signature []) s =
      .next (((s.countNonHost.setImage (s.countNonHost.pageScan st.page).1.image).setSign
        (s.fedSign c.cycle st rest (s.pageValues st.page))).raised .corrected
          (4 * (s.offsetsWith st.page .oneBit).length)).withAlert := by
  have hg := signatureGrant_fed (s := s.countNonHost) hc ht hr htwo
  have himage : (s.countNonHost.pageScan st.page).1 = s.countNonHost.setImage (s.countNonHost.pageScan st.page).1.image :=
    scanCells_eq_setImage _ _ _
  have hlen : (s.offsetsWith st.page .oneBit).length ≠ 0 := fun hzero => by
    have hnil : s.offsetsWith st.page .oneBit = [] := List.eq_nil_of_length_eq_zero hzero
    refine hne fun o ho => ?_
    have hone : (s.cell (st.page * 64 + o)).damage ≠ .oneBit := fun hd => by
      have hmem : o ∈ s.offsetsWith st.page .oneBit := List.mem_filter.mpr ⟨List.mem_range.mpr ho, by simp [hd]⟩
      rw [hnil] at hmem
      exact absurd hmem List.not_mem_nil
    cases hd : (s.cell (st.page * 64 + o)).damage with
    | intact => rfl
    | oneBit => exact absurd hd hone
    | twoBits => exact absurd hd (htwo o ho)
  have hraise : ∀ t : State, t.pressure = s.pressure → t.raiseCorrected (s.offsetsWith st.page .oneBit).length =
      t.raised .corrected (4 * (s.offsetsWith st.page .oneBit).length) := fun t hp =>
    (if_neg hlen).trans (raise_low (by rw [hp]; exact hlow))
  dsimp only at hg
  rw [if_neg hrest, himage] at hg
  have hkeeps : State.Keeps _ s := ⟨rfl, rfl, rfl, rfl, rfl, rfl, rfl, rfl, rfl⟩
  exact (exec_signature_quiet hready hpass hpick (hg.trans (hraise _ (by rfl)))
    (hkeeps.still_of_pages hstill rfl rfl) ⟨rfl, rfl, rfl, rfl, rfl⟩).1

end Grant

/-- A grant behind which a donor is in its closing pass. -/
theorem exec_signature_donates {s : State} {g : SignUnit} {l : LaneUnit} {x : Transfer} {p : Ports} {d : Close}
    (hstill : s.still) (hready : s.ready) (hpass : s.passWaits = true) (hpick : s.pick = some .signature)
    (hg : s.countNonHost.signatureGrant [] = (((s.countNonHost.setSign g).setLane l).setXfer x).setPorts p)
    (hstate : l.state = s.lane.state) (hmark : l.permitMark = s.lane.permitMark) (hrole : x.role = .donor)
    (hclosing : x.closing ≠ []) (hd : l.close = some d) (hstage : d.stage = .closingPass) :
    exec (.signature []) s = .next ((((s.countNonHost.setSign g).setLane l).setXfer x).setPorts p) := by
  have hpermit : ((((s.countNonHost.setSign g).setLane l).setXfer x).setPorts p).permitCond = s.permitCond := by
    simp [State.permitCond, hstate, hmark, State.countNonHost]
  exact (exec_signature_quiet hready hpass hpick hg
    (still_closingPass hstill hrole hclosing hd hstage hstill.2.2.1 rfl rfl rfl hstill.2.2.2.2.2.2)
    ⟨rfl, rfl, rfl, rfl, hpermit⟩).2 rfl

/-- A grant that has decided a vote and released the hold. -/
theorem exec_signature_settles {s d : State} {g : SignUnit} {l : LaneUnit} {p : Ports} {x : LaneState} {n : Nat} {c : Half}
    (hstill : s.still) (hready : s.ready) (hpass : s.passWaits = true) (hpick : s.pick = some .signature)
    (hrole : s.xfer.role = .none)
    (hg : s.countNonHost.signatureGrant [] = d.setLane { d.lane with lastClosed := c, close := none })
    (hd : d.Decided (((s.countNonHost.setSign g).setLane l).setPorts p) x n) :
    ∃ t, exec (.signature []) s = .next t ∧ t.lane.state = x ∧ t.lane.close = none ∧ t.lane.window = l.window ∧
      t.lane.lastClosed = c ∧ t.lane.abstain = l.abstain ∧ t.lane.history = l.history ∧ t.sign = g ∧ t.image = s.image ∧
      t.pages = s.pages ∧ t.queue = s.queue ∧ t.journal = s.journal ∧ t.ckpt = s.ckpt := by
  obtain ⟨-, hout, hreads⟩ := hready
  obtain ⟨u, hu⟩ : ∃ u, u = d.setLane { d.lane with lastClosed := c, close := none } := ⟨_, rfl⟩
  rw [← hu] at hg
  have hstill' : u.still := by
    rw [hu]
    exact still_passed hstill (by exact (congrArg Transfer.role hd.xfer).trans hrole) rfl
      (flightStands_congr hstill.2.2.1 hd.pages hd.ckpt hd.rest) hd.rest hd.queue hd.comm
      (eraseStands_congr hstill.2.2.2.2.2.2 hd.ckpt)
  have hlink : u.link = s.link := by rw [hu]; exact hd.link
  have hexec := exec_signature hpass hpick hg (settled_of_still hstill') (by
    simpa only [State.readsDone, State.readWaits, hlink] using hreads)
  obtain ⟨q, m, k, hend⟩ := closeEvent_told (s := u) (by rw [hlink]; exact hout.2.1) (by
    rw [hu]
    exact hd.withdrawn.trans hout.2.2.2)
  rw [hend, hu] at hexec
  exact ⟨_, hexec, hd.state, rfl, hd.window, rfl, hd.abstain, hd.history, hd.sign, hd.image, hd.pages, hd.queue, hd.journal,
    hd.ckpt⟩

/-! ### The last page -/

section Last

variable {s : State} {c : Close} {st : SignStep}

/-- The part once its last page, a sound one, has been fed. -/
def State.signed (s : State) (c : Close) (st : SignStep) : State :=
  s.countNonHost.setSign (s.fedSign c.cycle st [] (s.pageValues st.page))

/-- The cycle record of a pass that has signed every page (R61). -/
def State.signedRecord (s : State) (c : Close) (st : SignStep) : CycleRecord :=
  s.newRecord c (some ((s.signed c st).ownSignature c.cycle)) (some (regionSignatures (s.signed c st).sign.results))

variable (hstill : s.still) (hready : s.ready) (hpass : s.passWaits = true) (hpick : s.pick = some .signature)
  (hc : s.lane.close = some c) (hvote : c.vote = .notStarted) (ht : s.sign.todo = [st]) (hr : s.readable st.page = true)
  (h : ∀ o, o < 64 → (s.cell (st.page * 64 + o)).damage = .intact)
include hstill hready hpass hpick hc hvote ht hr h

omit hstill hready hpass hpick hvote in
theorem signatureGrant_last : s.countNonHost.signatureGrant [] = (s.signed c st).endPass none (voting s.lane.state) :=
  (signatureGrant_sound (s := s.countNonHost) hc ht hr h).trans (if_pos rfl)

theorem exec_signature_closes (hv : voting s.lane.state = false) (hrole : s.xfer.role = .none)
    (hck : c.withCheckpoint = false) :
    exec (.signature []) s = .next ((s.signed c st).setLane (s.lane.closed c (s.signedRecord c st))) := by
  have hg := signatureGrant_last hc ht hr h
  rw [hv, endPass_signed_silent (by exact hc), closeSteps_silent (by exact hv) (by exact hrole) (.inl hck) hvote] at hg
  exact (exec_signature_quiet hready hpass hpick hg
    (still_passed hstill hrole rfl hstill.2.2.1 rfl rfl rfl hstill.2.2.2.2.2.2) ⟨rfl, rfl, rfl, rfl, rfl⟩).2 rfl

theorem exec_signature_snapshots (hv : voting s.lane.state = false) (hrole : s.xfer.role = .none)
    (hck : c.withCheckpoint = true) (hwf : s.pagesWf = true) (hnone : s.uncapturedPages = [])
    (hidle : s.ckpt.state = .idle) (hslot : (s.ckpt.slot s.ckpt.inactive).state = .erased)
    (hhigh : s.ckpt.highest ≠ BitVec.allOnes 32) (hop : s.ctl.op = none)
    (hres : ∀ q, s.isCheckpointed q = true → (s.page q).state = .suspect → q ∈ s.rest.list)
    (hset : ∃ q, q < 256 ∧ s.isCheckpointed q = true ∧ (s.page q).state ≠ .unset) :
    ∃ m, (∀ q, (s.setPages m).page q =
        if q < 256 ∧ s.isCheckpointed q = true then (s.page q).snapshot else s.page q) ∧
      exec (.signature []) s = .next { s.signed c st with
        pages := m
        journal := s.journal.opened
        ckpt := s.ckpt.opened c.cycle s.journal.next s.checkpointedPages.length
        ctl := { s.ctl with op := some (.programBegin s.ckpt.inactive
          { generation := s.ckpt.highest + 1, cycle := c.cycle, start := s.journal.next }) }
        lane := s.lane.closed c { s.signedRecord c st with checkpoint := true } } := by
  have hg := signatureGrant_last hc ht hr h
  rw [hv, endPass_signed_silent (by exact hc), closeSteps_snapshot (by exact hv) (by exact hrole) hck hvote (by exact hidle)
    (by exact hslot) (by exact hhigh) (by exact hop), openSnapshot_eq _ (by exact hhigh) (by exact hop)] at hg
  obtain ⟨m, hm⟩ : ∃ m, m = ((s.signed c st).mapPages PageRec.snapshot (s.signed c st).checkpointedPages).pages := ⟨_, rfl⟩
  have hpage : ∀ q, (s.setPages m).page q =
      if q < 256 ∧ s.isCheckpointed q = true then (s.page q).snapshot else s.page q := fun q => by
    have hq := page_mapPages (s := s.signed c st) (f := PageRec.snapshot) (fun _ => rfl) hwf (s.signed c st).checkpointedPages q
    rw [hm]
    simp only [mem_checkpointedPages] at hq
    exact hq
  rw [← hm] at hg
  refine ⟨m, hpage, ?_⟩
  refine (exec_signature_quiet hready hpass hpick hg ?_ ⟨rfl, rfl, rfl, rfl, rfl⟩).2 rfl
  refine still_passed hstill hrole rfl (flightStands_snapshot (s := s) ?_ hnone hres hset rfl rfl) rfl rfl rfl rfl
  exact hpage

variable (hck : c.withCheckpoint = false) (hv : voting s.lane.state = true)
include hck hv

omit hvote in
theorem exec_signature_announces (hrole : s.xfer.role = .none)
    (hmiss : s.lane.peer1.missing = true ∨ s.lane.peer2.missing = true) :
    exec (.signature []) s =
      .next (((s.signed c st).setLane { s.lane with
        abstain := 0, history := addHistory s.lane.history (s.signedRecord c st), lastClosed := c.cycle
        window := some s.voteWindow
        close := some { c with
          stage := .closed, vote := .running, signature := some ((s.signed c st).ownSignature c.cycle) } }).handBoth
        (s.announcement c (some ((s.signed c st).ownSignature c.cycle)))) := by
  have hg := signatureGrant_last hc ht hr h
  rw [hv, endPass_signed_votes (by exact hc), closeSteps_votes (by exact hv) (by exact hrole) (.inl hck) (by exact hmiss)] at hg
  rw [handBoth_eq] at hg ⊢
  exact (exec_signature_quiet hready hpass hpick hg
    (still_passed hstill hrole rfl hstill.2.2.1 rfl rfl rfl hstill.2.2.2.2.2.2) ⟨rfl, rfl, rfl, rfl, rfl⟩).2 rfl

omit hvote in
theorem exec_signature_closingPass (hrole : s.xfer.role = .donor) (howes : s.xfer.owed ≠ []) (howed : s.xfer.owed.length ≤ 16)
    (hmiss : s.lane.peer1.missing = true ∨ s.lane.peer2.missing = true) :
    exec (.signature []) s =
      .next ((((s.signed c st).setLane { s.lane with
        abstain := 0, history := addHistory s.lane.history (s.signedRecord c st), window := some s.voteWindow
        close := some { c with
          stage := .closingPass, vote := .running
          signature := some ((s.signed c st).ownSignature c.cycle) } }).setXfer { s.xfer with
            closing := s.xfer.owed, plan := [], resend := [], caughtUp := false }).handBoth
        (s.announcement c (some ((s.signed c st).ownSignature c.cycle)))) := by
  have hg := signatureGrant_last hc ht hr h
  rw [hv, endPass_signed_votes (by exact hc), closeSteps_donor (by exact hv) (by exact hrole) hck (by exact hmiss)
    (by exact howed)] at hg
  rw [handBoth_eq] at hg ⊢
  exact exec_signature_donates hstill hready hpass hpick (hg.trans rfl) rfl rfl hrole howes rfl rfl

omit hvote in
theorem exec_signature_decides (hstage : c.stage ≠ .closed) (hrole : s.xfer.role = .none) (hone : s.lane.peer1.missing = false)
    (htwo : s.lane.peer2.missing = false) (hlow : s.pressure.p + 128 < 512) :
    let own := (s.signed c st).ownSignature c.cycle
    let out := voteOutcome (decide (s.lane.state = .active)) (some own) (s.lane.peer1.voteFor c.cycle)
      (s.lane.peer2.voteFor c.cycle)
    ∃ t, exec (.signature []) s = .next t ∧
      t.lane.state = (if s.lane.state = .active then afterActive out else afterForming out) ∧ t.lane.close = none ∧
      t.lane.window = none ∧ t.lane.lastClosed = c.cycle ∧ t.lane.abstain = 0 ∧
      (t.lane.history.getLast?).map (fun x => (x.cycle, x.signature, x.regions, x.outcome)) =
        some (c.cycle, some own, some (regionSignatures (s.signed c st).sign.results), out) ∧
      t.sign = (s.signed c st).sign ∧ t.image = s.image ∧ t.pages = s.pages ∧ t.queue = s.queue ∧ t.journal = s.journal ∧
      t.ckpt = s.ckpt := by
  intro own out
  have hg := signatureGrant_last hc ht hr h
  obtain ⟨d, hd, hsteps⟩ := closeSteps_decided (s := (s.signed c st).abstained 0) (c := c) (sig := some own)
    (rs := some (regionSignatures (s.signed c st).sign.results)) hv hrole hck hstage hone htwo hlow
  rw [hv, endPass_signed_votes (by exact hc)] at hg
  obtain ⟨p, hp⟩ := announcing_eq ((s.signed c st).abstained 0) c (some own)
    (some (regionSignatures (s.signed c st).sign.results))
  rw [hp] at hd
  obtain ⟨l, hl⟩ : ∃ l, l = ((s.signed c st).abstained 0).lane.announced { c with signature := some own }
    (((s.signed c st).abstained 0).newRecord c (some own) (some (regionSignatures (s.signed c st).sign.results)))
    ((s.signed c st).abstained 0).voteWindow := ⟨_, rfl⟩
  rw [← hl, voted_setLane_setPorts, abstained_setLane] at hd
  obtain ⟨t, hexec, hstate, hclose, hwindow, hlast, habstain, hhist, hrest⟩ :=
    exec_signature_settles hstill hready hpass hpick hrole (hg.trans hsteps) hd
  refine ⟨t, hexec, hstate, hclose, hwindow, hlast, habstain.trans (by rw [hl]; rfl), ?_, hrest⟩
  rw [hhist, hl]
  refine (congrArg (fun l => Option.map _ (List.getLast? l)) (mapLast_addHistory _ _ _)).trans ?_
  rw [getLast_addHistory]
  rfl

end Last

/-! ### The stops (R57, R58) -/

section Stop

variable {s : State} {c : Close} {st : SignStep} {rest : List SignStep}

/-- The part once a grant has stopped the pass. -/
def State.stopped (s : State) (why : StopCause) : State := s.countNonHost.dropSigning why

/-- The record of a pass that stops. -/
def State.stoppedRecord (s : State) (c : Close) : CycleRecord := s.newRecord c none none

/-- The lane once its own pass has withdrawn it at the abstain limit. -/
def LaneUnit.barred (l : LaneUnit) : LaneUnit := { l with abstain := min 7 (l.abstain + 1) }.moved .excluded

theorem barred_eq (l : LaneUnit) :
    l.barred = { l with
      state := .excluded, abstain := min 7 (l.abstain + 1)
      permitMark := if l.state = .active then false else l.permitMark
      peer1 := l.peer1.emptied, peer2 := l.peer2.emptied } := by
  simp [LaneUnit.barred, LaneUnit.moved, voting]

/-- The record of a pass that has withdrawn its lane (log entry 46). -/
def State.barredRecord (s : State) (c : Close) : CycleRecord := (s.setLane s.lane.barred).newRecord c none none

theorem flightStands_of_no_flight {u : State} (h : u.inFlight = false) : u.flightStands = true := by
  unfold State.flightStands
  cases hc : u.ckpt.state with
  | idle => rfl
  | erasing => rfl
  | finishing => simp [State.inFlight, hc] at h
  | capturing => simp [State.inFlight, hc] at h

/-- A grant that has handed on a finding and ended its close. -/
theorem exec_signature_hands {w : State} {n : SignUnit} {l : LaneUnit} (hstill : s.still) (hready : s.ready)
    (hpass : s.passWaits = true) (hpick : s.pick = some .signature)
    (hg : s.countNonHost.signatureGrant [] = (w.setSign n).setLane l) (hk : w.Keeps s) (hrest : w.rest = s.rest)
    (hstate : l.state = s.lane.state) (hmark : l.permitMark = s.lane.permitMark) (hclose : l.close = none)
    (hrole : s.xfer.role = .none) (hflight : s.inFlight = false) :
    exec (.signature []) s = .next ((w.setSign n).setLane l).withAlert := by
  have hcs : ((w.setSign n).setLane l).closeStands = true := by
    simp [State.closeStands, hclose]
  have hflight' : ((w.setSign n).setLane l).inFlight = false := by
    rw [← hflight, State.inFlight, State.inFlight, ← hk.ckpt]
    rfl
  have hpermit : ((w.setSign n).setLane l).permitCond = s.permitCond := by
    simp [State.permitCond, hstate, hmark, hk.comm]
  exact (exec_signature_quiet hready hpass hpick hg
    (still_passed hstill (by exact (congrArg Transfer.role hk.xfer).trans hrole) hcs (flightStands_of_no_flight hflight') hrest
      hk.queue hk.comm (eraseStands_congr hstill.2.2.2.2.2.2 hk.ckpt)) ⟨hk.phase, hk.link, hk.notes, hk.pins, hpermit⟩).1

/-- A grant that has raised a kind and announced its close. -/
theorem exec_signature_raises {k : FaultKind} {w : Nat} {n : SignUnit} {l : LaneUnit} {p : Ports} {d : Close}
    (hstill : s.still) (hready : s.ready) (hpass : s.passWaits = true) (hpick : s.pick = some .signature)
    (hg : s.countNonHost.signatureGrant [] = (((s.countNonHost.setSign n).raised k w).setLane l).setPorts p)
    (hstate : l.state = s.lane.state) (hmark : l.permitMark = s.lane.permitMark) (hclose : l.close = some d)
    (hstage : d.stage = .closed) (hrole : s.xfer.role = .none) :
    exec (.signature []) s =
      .next ((((s.countNonHost.setSign n).raised k w).setLane l).setPorts p).withAlert := by
  have hcs : ((((s.countNonHost.setSign n).raised k w).setLane l).setPorts p).closeStands = true := by
    simp [State.closeStands, hclose, hstage]
  exact (exec_signature_quiet hready hpass hpick hg
    (still_passed hstill hrole hcs hstill.2.2.1 rfl rfl rfl hstill.2.2.2.2.2.2)
    ⟨rfl, rfl, rfl, rfl, by simp [State.permitCond, hstate, hmark, State.countNonHost, State.raised]⟩).1

/-- A grant that has withdrawn the lane and ended its close. -/
theorem exec_signature_withdraws {w : State} {l : LaneUnit} {r : CycleRecord} (hstill : s.still) (hready : s.ready)
    (hpass : s.passWaits = true) (hpick : s.pick = some .signature)
    (hg : s.countNonHost.signatureGrant [] = (w.setLane l).setNotes { moved := true, withdrawn := true }) (hk : w.Keeps s)
    (hpages : w.pages = s.pages) (hrest : w.rest = s.rest) (hprim : w.faults.primary = none) (hclose : l.close = none)
    (hlast : l.history.getLast? = some r) (hrole : s.xfer.role = .none) :
    exec (.signature []) s =
      .next (((w.setLane l).framed (.closing .selfWithdrawn r.cycle r.signature r.peer1 r.peer2 r.outcome)).handBoth
        (.state l.state l.lastClosed)).withLines := by
  obtain ⟨-, hout, hreads⟩ := hready
  have hcs : (w.setLane l).closeStands = true := by
    simp [State.closeStands, hclose]
  have hstill' : (w.setLane l).still :=
    still_passed hstill (by exact (congrArg Transfer.role hk.xfer).trans hrole) hcs
      (flightStands_congr hstill.2.2.1 hpages hk.ckpt hrest) hrest hk.queue hk.comm
      (eraseStands_congr hstill.2.2.2.2.2.2 hk.ckpt)
  have hquiet : (w.setLane l).quiet := by
    simpa only [State.quiet, State.setLane_link, State.setLane_notes, hk.link, hk.notes] using hout.2
  have hreads' : (w.setLane l).readsDone := by
    simpa only [State.readsDone, State.readWaits, State.setLane_link, hk.link] using hreads
  rw [exec_signature hpass hpick hg (settled_of_still (by exact hstill')) hreads', closeEvent_of_withdrawn hquiet hprim,
    withdrawnFrame_eq (s := w.setLane l) hlast]
  rfl

variable (hstill : s.still) (hready : s.ready) (hpass : s.passWaits = true) (hpick : s.pick = some .signature)
  (hc : s.lane.close = some c) (hvote : c.vote = .notStarted) (ht : s.sign.todo = st :: rest) (hrole : s.xfer.role = .none)
include hstill hready hpass hpick hc hvote ht hrole

theorem exec_signature_unsignable (hr : s.readable st.page = false) (hv : voting s.lane.state = false) :
    exec (.signature []) s =
      .next ((s.stopped .unsignablePage).setLane (s.lane.closed c (s.stoppedRecord c))) := by
  have hg := signatureGrant_unsignable (s := s.countNonHost) hc ht hr
  rw [endPass_stopped (by exact hc), if_neg (by exact fun h => Bool.noConfusion (hv.symm.trans h)),
    closeSteps_silent (by exact hv) (by exact hrole) (.inr rfl) hvote] at hg
  exact (exec_signature_quiet hready hpass hpick hg
    (still_passed hstill hrole rfl hstill.2.2.1 rfl rfl rfl hstill.2.2.2.2.2.2) ⟨rfl, rfl, rfl, rfl, rfl⟩).2 rfl

theorem exec_signature_finds {o : Nat} (hr : s.readable st.page = true) (hv : voting s.lane.state = false) (ho : o < 64)
    (hd : (s.cell (st.page * 64 + o)).damage = .twoBits)
    (hrest : ∀ x, x < 64 → x ≠ o → (s.cell (st.page * 64 + x)).damage = .intact) (hall : (s.page st.page).suspectAll = false)
    (hl : st.page * 64 + o ∉ s.suspects) (hlen : s.suspects.length < 32) (hauto : s.isAutoRestore st.page = false)
    (hflight : s.inFlight = false) (hprim : s.faults.primary = none) (hlow : s.pressure.p + 64 < 512) :
    ∃ g, s.onlyPage g st.page (fun x => { x with state := .suspect }) ∧
      exec (.signature []) s =
        .next (((((((s.countNonHost.setSuspects (s.suspects ++ [st.page * 64 + o])).setPages g).raised .uncorrectable 64).framed
          (.patrol .uncorrectable st.page 0 [o] s.patrol.round)).dropSigning .newUncorrectable).setLane
            (s.lane.closed c (s.stoppedRecord c))).withAlert) := by
  have hone : ∀ x, x < 64 → (s.cell (st.page * 64 + x)).damage ≠ .oneBit := fun x hx => by
    by_cases hxo : x = o
    · simp [hxo, hd]
    · simp [hrest x hx hxo]
  have hbad : s.offsetsWith st.page .twoBits = [o] := offsetsWith_one ho hd fun x hx hxo => by simp [hrest x hx hxo]
  obtain ⟨hcorr, hbad'⟩ := pageScan_counts s.countNonHost st.page
  have hstate : (s.page st.page).state ≠ .unset ∧ (s.page st.page).state ≠ .restoring := by
    rcases readable_iff.mp hr with h | h <;> simp [h]
  obtain ⟨g, hg, hhand⟩ := handOn_one (s := s.countNonHost) (p := st.page) (o := o)
    (r := (s.countNonHost.pageScan st.page).2) (hbad'.trans hbad)
    (hcorr.trans (congrArg List.length (offsetsWith_nil (s := s) hone))) hall hl hlen hrole hstate.1 hstate.2 hauto hprim hlow
  have hgrant := signatureGrant_found (s := s.countNonHost) hc ht hr
    (by rw [hbad', show s.countNonHost.offsetsWith st.page .twoBits = [o] from hbad]; exact List.cons_ne_nil _ _)
    (pageScan_state (s := s.countNonHost) hone)
  rw [hhand, endPass_stopped (by exact hc), if_neg (by exact fun h => Bool.noConfusion (hv.symm.trans h)),
    closeSteps_silent (by exact hv) (by exact hrole) (.inr rfl) hvote] at hgrant
  have hkeeps : s.countNonHost.Keeps s := ⟨rfl, rfl, rfl, rfl, rfl, rfl, rfl, rfl, rfl⟩
  exact ⟨g, hg, exec_signature_hands hstill hready hpass hpick hgrant
    ((((hkeeps.setSuspects _).setPages g).raised _ _).framed _) rfl rfl rfl rfl hrole hflight⟩

variable (hr : s.readable st.page = false) (hv : voting s.lane.state = true) (hlow : s.pressure.p + 16 < 512)
include hr hv hlow

omit hvote in
theorem exec_signature_abstains (hlimit : min 7 (s.lane.abstain + 1) < s.abstainLimit)
    (hmiss : s.lane.peer1.missing = true ∨ s.lane.peer2.missing = true) :
    exec (.signature []) s =
      .next ((((s.stopped .unsignablePage).raised .abstained 16).setLane { s.lane with
        abstain := min 7 (s.lane.abstain + 1), history := addHistory s.lane.history (s.stoppedRecord c)
        lastClosed := c.cycle, window := some s.voteWindow
        close := some { c with stage := .closed, vote := .running, signature := none } }).handBoth
        (.announce c.cycle s.lane.state none true (s.pressure.p + 16) false)).withAlert := by
  have hg := signatureGrant_unsignable (s := s.countNonHost) hc ht hr
  rw [endPass_stopped (by exact hc), if_pos (by exact hv), abstains_below (by exact hlow) (by exact hlimit),
    closeSteps_votes (by exact hv) (by exact hrole) (.inr rfl) (by exact hmiss)] at hg
  have hdonor : decide (s.xfer.role = .donor) = false := by simp [hrole]
  rw [← hdonor]
  rw [handBoth_eq] at hg ⊢
  exact exec_signature_raises hstill hready hpass hpick hg rfl rfl rfl rfl hrole

theorem exec_signature_barred (hlimit : s.abstainLimit ≤ min 7 (s.lane.abstain + 1)) (hprim : s.faults.primary = none) :
    exec (.signature []) s =
      .next (((((((s.stopped .unsignablePage).raised .abstained 16).raised .selfWithdrawn 0).setLane
        (s.lane.barred.closed c (s.barredRecord c))).framed
          (.closing .selfWithdrawn c.cycle none (s.barredRecord c).peer1 (s.barredRecord c).peer2 .notVoted)).handBoth
        (.state .excluded c.cycle)).withLines) := by
  have hg := signatureGrant_unsignable (s := s.countNonHost) hc ht hr
  have hlow' : s.pressure.p + 16 + 0 < 512 := hlow
  rw [endPass_stopped (by exact hc), if_pos (by exact hv), abstains_limit (by exact hlow) (by exact hlimit) (by exact hv),
    selfWithdraw_eq (by exact hv) (by exact hrole) (fun d hd => by
      obtain rfl := Option.some.inj (hc.symm.trans hd)
      simp [hvote]) (by exact hlow'),
    closeSteps_silent (by rfl) (by exact hrole) (.inr rfl) hvote] at hg
  have hkeeps : (s.stopped .unsignablePage).Keeps s := ⟨rfl, rfl, rfl, rfl, rfl, rfl, rfl, rfl, rfl⟩
  exact exec_signature_withdraws (w := ((s.stopped .unsignablePage).raised .abstained 16).raised .selfWithdrawn 0)
    (l := s.lane.barred.closed c (s.barredRecord c)) (r := s.barredRecord c) hstill hready hpass hpick (hg.trans rfl)
    ((hkeeps.raised _ _).raised _ _) rfl rfl hprim rfl (getLast_addHistory _ _) hrole

end Stop

end Sys2Proof.Machine
end

section
/-! The signature pass, case by case (R56 to R60). -/

namespace Sys2Proof.Machine

/-- Settles O35: each clause is the grant's case, by what the page is found to be and by what the close then does. -/
theorem signaturePassFeedsAndEnds : Obligations.SignaturePassFeedsAndEnds := by
  intro s c st rest hstill hready hpass hpick hc hstage hvote ht p readable sound fed seed sign stopped voting' note record push
    own regions signed stands
  have hquiet : ∀ {x : LaneState}, ¬ (x = .forming ∨ x = .active) → voting x = false := fun h => voting_eq_false.mpr h
  refine ⟨fun hr hsound hne => ?_, fun hr hne htwo hsound => ?_, fun hr hsound hlast hck hrole hv => ?_,
    fun hr hsound hlast hck hrole hv hwf hnone hidle hslot hhigh hop hres hset => ?_,
    fun hr hsound hlast hck hv hmiss => ⟨fun hrole => ?_, fun hrole hactive howes howed => ?_⟩,
    fun hr hsound hlast hck hv hrole hone htwo hlow => ?_,
    fun hrole hv => ⟨fun hr => ?_, fun o hr ho hd hrest hall hl hlen hauto hflight hprim hlow => ?_⟩,
    fun hr hrole hv hlow => ?_⟩
  · exact exec_signature_feeds hstill hready hpass hpick hc ht (readable_iff.mpr hr) hsound hne
  · intro n hlow
    refine ⟨(s.countNonHost.pageScan st.page).1.image, fun b => ?_, ?_⟩
    · have himage := scanCells_eq_setImage (skip := fun _ => false) (p := st.page) (List.range 64) s.countNonHost Scan.empty
      refine (congrArg (fun t : State => t.cell b) himage.symm).trans ?_
      exact cell_pageScan (s := s.countNonHost) htwo b
    · exact exec_signature_corrects hstill hready hpass hpick hc ht (readable_iff.mpr hr) htwo hne hsound hlow
  · subst hlast
    refine (exec_signature_closes hstill hready hpass hpick hc hvote ht (readable_iff.mpr hr) hsound (hquiet hv) hrole
      hck).trans (congrArg Host.Outcome.next ?_)
    rw [State.signedRecord, newRecord_eq (hquiet hv)]
    rfl
  · subst hlast
    obtain ⟨m, hm, hexec⟩ := exec_signature_snapshots hstill hready hpass hpick hc hvote ht (readable_iff.mpr hr) hsound
      (hquiet hv) hrole hck hwf hnone hidle hslot hhigh hop hres hset
    refine ⟨m, hm, hexec.trans (congrArg Host.Outcome.next ?_)⟩
    rw [State.signedRecord, newRecord_eq (hquiet hv)]
    rfl
  · subst hlast
    refine (exec_signature_announces hstill hready hpass hpick hc ht (readable_iff.mpr hr) hsound hck (voting_iff.mpr hv) hrole
      hmiss).trans (congrArg Host.Outcome.next ?_)
    have hdonor : s.announcement c (some ((s.signed c st).ownSignature c.cycle)) =
        .announce c.cycle s.lane.state (some own) false s.pressure.p false := by
      simp only [State.announcement, hrole]
      rfl
    rw [hdonor, State.signedRecord, newRecord_eq (voting_iff.mpr hv)]
    rfl
  · subst hlast
    refine (exec_signature_closingPass hstill hready hpass hpick hc ht (readable_iff.mpr hr) hsound hck (voting_iff.mpr hv) hrole
      howes howed hmiss).trans (congrArg Host.Outcome.next ?_)
    have hdonor : s.announcement c (some ((s.signed c st).ownSignature c.cycle)) =
        .announce c.cycle s.lane.state (some own) false s.pressure.p true := by
      simp only [State.announcement, hrole]
      rfl
    rw [hdonor, State.signedRecord, newRecord_eq (voting_iff.mpr hv)]
    rfl
  · subst hlast
    exact exec_signature_decides hstill hready hpass hpick hc ht (readable_iff.mpr hr) hsound hck (voting_iff.mpr hv)
      (by rw [hstage]; exact CloseStage.noConfusion) hrole hone htwo hlow
  · refine (exec_signature_unsignable hstill hready hpass hpick hc hvote ht hrole
      (Bool.eq_false_iff.mpr fun h => hr (readable_iff.mp h)) (hquiet hv)).trans (congrArg Host.Outcome.next ?_)
    rw [State.stoppedRecord, newRecord_eq (hquiet hv)]
    rfl
  · obtain ⟨g, hg, hexec⟩ := exec_signature_finds hstill hready hpass hpick hc hvote ht hrole (readable_iff.mpr hr) (hquiet hv)
      ho hd hrest hall hl hlen hauto hflight hprim hlow
    refine ⟨g, hg, hexec.trans (congrArg Host.Outcome.next ?_)⟩
    rw [State.stoppedRecord, newRecord_eq (hquiet hv)]
    rfl
  · intro count
    have hr' : s.readable st.page = false := Bool.eq_false_iff.mpr fun h => hr (readable_iff.mp h)
    refine ⟨fun hlimit hmiss => ?_, fun hlimit hprim => ?_⟩
    · refine (exec_signature_abstains hstill hready hpass hpick hc ht hrole hr' (voting_iff.mpr hv) hlow hlimit hmiss).trans
        (congrArg Host.Outcome.next ?_)
      rw [State.stoppedRecord, newRecord_eq (voting_iff.mpr hv)]
      rfl
    · refine (exec_signature_barred hstill hready hpass hpick hc hvote ht hrole hr' (voting_iff.mpr hv) hlow hlimit hprim).trans
        (congrArg Host.Outcome.next ?_)
      rw [State.barredRecord, newRecord_eq (completed := false) rfl, barred_eq]
      rfl

end Sys2Proof.Machine
end

section
/-! Fault pressure: its timers, the pace level, the raises that cross a threshold of P, and the slots of the fault store
(chapter 3, R142, R149). -/

namespace Sys2Proof.Machine

/-! ### The pace level (R48) -/

section Pace

variable {p : Nat} (level : Nat)

theorem paceAfter_from_512 (h : 512 ≤ p) : paceAfter p level = 2 := if_pos h

theorem paceAfter_448_to_511 (h : 448 ≤ p) (h' : p ≤ 511) : paceAfter p level = if level = 2 then 2 else 1 := by
  rw [paceAfter, if_neg (by omega), if_pos h]

theorem paceAfter_256_to_447 (h : 256 ≤ p) (h' : p ≤ 447) : paceAfter p level = 1 := by
  rw [paceAfter, if_neg (by omega), if_neg (by omega), if_pos h]

theorem paceAfter_192_to_255 (h : 192 ≤ p) (h' : p ≤ 255) : paceAfter p level = if level = 0 then 0 else 1 := by
  rw [paceAfter, if_neg (by omega), if_neg (by omega), if_neg (by omega), if_pos h]

theorem paceAfter_to_191 (h : p ≤ 191) : paceAfter p level = 0 := by
  rw [paceAfter, if_neg (by omega), if_neg (by omega), if_neg (by omega), if_neg (by omega)]

end Pace

/-! ### The timers of chapter 3 -/

section Decay

variable {s : State}

/-- A decay takes an eighth of P, rounded up, and lets the pace level follow where P has changed (R47, R48). -/
theorem decay_eq (s : State) :
    s.decay = { s with
      pressure := { p := s.pressure.p - (s.pressure.p + 7) / 8, timer := some s.decayPeriod }
      patrol := { s.patrol with
        pace :=
          if s.pressure.p = 0 then s.patrol.pace
          else paceAfter (s.pressure.p - (s.pressure.p + 7) / 8) s.patrol.pace } } := by
  have hsame : pressureDecayed s.pressure.p = s.pressure.p ↔ s.pressure.p = 0 := by
    unfold pressureDecayed
    omega
  unfold State.decay
  by_cases hp : s.pressure.p = 0
  · simp only [hp, if_true]
    rfl
  · simp only [hsame, hp, if_false]
    rfl

/-- The decay timer's expiry has no effect but the decay: no output line looks at P. -/
theorem exec_decayTimerExpiry {n : Nat} (hout : s.settledOutputs) (ht : s.pressure.timer = some n) :
    exec .decayTimerExpiry s = .next s.decay := by
  obtain ⟨hlines, hquiet⟩ := hout
  have hend : s.plainEvent State.decay = s.decay := by
    rw [State.plainEvent, decay_eq, closeEvent_of_quiet (by exact hquiet)]
    exact drivePins_same hlines rfl rfl rfl rfl
  change execDecayTimerExpiry s = _
  simp only [execDecayTimerExpiry, ht, hend]

end Decay

/-- Settles O30: the expiry of the visit timer is its command's whole effect, that of the decay timer is the decay. -/
theorem timersExpire : Obligations.TimersExpire := by
  intro s
  refine ⟨fun n ht => ?_, fun hout n ht => ?_⟩
  · change execPatrolTimerExpiry s = _
    simp only [execPatrolTimerExpiry, ht]
    rfl
  · refine ⟨_, (exec_decayTimerExpiry hout ht).trans (congrArg Host.Outcome.next (decay_eq s)), fun hp => ?_⟩
    rw [if_pos hp]

/-! ### One raise (R45, R46, R49, R142) -/

section Raise

variable {s : State}

/-- The kind that an addition taking P from `p` to `q` raises besides its own (R49). -/
def highKinds (p q : Nat) : KindSet := if p < 512 ∧ 512 ≤ q then FaultKind.pressureHigh.bit else 0

theorem or_highKinds_of_not {p q : Nat} (h : ¬ (p < 512 ∧ 512 ≤ q)) (x : KindSet) : x ||| highKinds p q = x := by
  rw [highKinds, if_neg h]
  exact BitVec.or_zero

/-- The state after a raise of kind `k` that takes P to `q`, without its effect on the lane (R46, R48, R49, R142). -/
def State.raisedTo (s : State) (k : FaultKind) (q : Nat) : State :=
  { s with
    faults := { s.faults with
      current := s.faults.current ||| k.bit ||| highKinds s.pressure.p q
      accrued := s.faults.accrued ||| k.bit ||| highKinds s.pressure.p q, any := true }
    pressure := { s.pressure with p := q }
    patrol := { s.patrol with pace := if q = s.pressure.p then s.patrol.pace else paceAfter q s.patrol.pace } }

theorem raiseCore_eq (s : State) (k : FaultKind) (w : Nat) :
    s.raiseCore k w = s.raisedTo k (min 1023 (s.pressure.p + w)) := by
  have hp : (s.noteKind k).pressure.p = s.pressure.p := rfl
  have hq : pressureAfter s.pressure.p w = min 1023 (s.pressure.p + w) := rfl
  simp only [State.raiseCore, State.addPressure, hp, hq, State.raisedTo]
  generalize min 1023 (s.pressure.p + w) = q
  have hhigh : (s.pressure.p < Config.pressureHigh ∧ Config.pressureHigh ≤ q) = (s.pressure.p < 512 ∧ 512 ≤ q) := rfl
  simp only [hhigh]
  by_cases hcross : s.pressure.p < 512 ∧ 512 ≤ q
  · have hne : ¬ q = s.pressure.p := by omega
    simp only [if_pos hcross, if_neg hne, highKinds]
    rfl
  · simp only [if_neg hcross, or_highKinds_of_not hcross]
    split_ifs <;> rfl

/-- A raise whose addition to P does not withdraw the lane. -/
theorem raise_stays {k : FaultKind} {w : Nat}
    (h : ¬ (s.pressure.p < 768 ∧ 768 ≤ min 1023 (s.pressure.p + w) ∧ voting s.lane.state = true)) :
    s.raise k w = s.raisedTo k (min 1023 (s.pressure.p + w)) := by
  rw [State.raise, raiseCore_eq]
  exact if_neg h

/-- A raise whose addition to P withdraws the lane (R50). -/
theorem raise_withdraws {k : FaultKind} {w : Nat} (hp : s.pressure.p < 768) (hq : 768 ≤ min 1023 (s.pressure.p + w))
    (hv : voting s.lane.state = true) : s.raise k w = (s.raisedTo k (min 1023 (s.pressure.p + w))).selfWithdraw := by
  rw [State.raise, raiseCore_eq]
  exact if_pos ⟨hp, hq, hv⟩

/-- A raise of weight 0 adds its kind and nothing else. -/
theorem raiseCore_zero {k : FaultKind} (h : s.pressure.p ≤ 1023) : s.raiseCore k 0 = s.noteKind k := by
  have hcross : ¬ (s.pressure.p < 512 ∧ 512 ≤ s.pressure.p) := by omega
  have hq : min 1023 (s.pressure.p + 0) = s.pressure.p := Nat.min_eq_right h
  rw [raiseCore_eq, hq, State.raisedTo, or_highKinds_of_not hcross, or_highKinds_of_not hcross, if_pos rfl]
  rfl

end Raise

/-! ### What a withdrawal changes (R50, R84, R85, R89, R138) -/

section Withdrawal

variable {s t u : State}

/-- `t` is `s` with another lane unit, in the same lane state and with the same permit mark. -/
def State.SameLane (t s : State) : Prop :=
  ∃ l, t = s.setLane l ∧ l.state = s.lane.state ∧ l.permitMark = s.lane.permitMark

namespace State.SameLane

theorem refl (s : State) : s.SameLane s := ⟨s.lane, rfl, rfl, rfl⟩

theorem trans (h : u.SameLane t) (h' : t.SameLane s) : u.SameLane s := by
  obtain ⟨l, rfl, hstate, hmark⟩ := h
  obtain ⟨l', rfl, hstate', hmark'⟩ := h'
  exact ⟨l, rfl, hstate.trans hstate', hmark.trans hmark'⟩

theorem ite {c : Prop} [Decidable c] (ht : t.SameLane s) (hu : u.SameLane s) : (if c then t else u).SameLane s := by
  split_ifs <;> assumption

theorem mapPeers (s : State) (f : Peer → Peer) : (s.mapPeers f).SameLane s := ⟨_, rfl, rfl, rfl⟩

theorem setClose (s : State) (c : Option Close) : (s.setLane { s.lane with close := c }).SameLane s := ⟨_, rfl, rfl, rfl⟩

theorem retireClose (s : State) : s.retireClose.SameLane s := by
  unfold State.retireClose
  split
  · exact refl s
  · exact ite (setClose s none) (refl s)

theorem releaseHold (s : State) : s.releaseHold.SameLane s := by
  unfold State.releaseHold
  split
  · exact refl s
  · exact (retireClose _).trans ⟨_, rfl, rfl, rfl⟩

theorem dropVote (s : State) : s.dropVote.SameLane s := by
  unfold State.dropVote
  split
  · exact refl s
  · exact ite ((retireClose _).trans ⟨_, rfl, rfl, rfl⟩) (refl s)

end State.SameLane

/-- The lane unit `l` is that of a lane that has left the state of `m` for EXCLUDED, the permit mark cleared on leaving ACTIVE
(R85, R89). -/
def LaneUnit.Excludes (m l : LaneUnit) : Prop :=
  l.state = .excluded ∧ l.permitMark = if m.state = .active then false else m.permitMark

/-- A lane that leaves FORMING or ACTIVE for EXCLUDED: an ACTIVE donor's donation ends as well (R85, R138). -/
theorem shiftLane_excluded (hv : voting s.lane.state = true) :
    ∃ l, s.lane.Excludes l ∧
      s.shiftLane .excluded =
        if s.lane.state = .active ∧ s.xfer.role = .donor then
          ((((s.setLane l).setNotes { s.notes with moved := true }).donationOver (some .donorLeft)).raiseCore .joinFailed
            16).placeFrame (donateFrame none 0 .donorLeft)
        else (s.setLane l).setNotes { s.notes with moved := true } := by
  have hne : s.lane.state ≠ .excluded := fun h => by rw [h] at hv; exact absurd hv (by decide)
  obtain ⟨l, hdrop, hstate, hmark⟩ := (State.SameLane.dropVote
    ((s.setLane { s.lane with state := .excluded }).setNotes { s.notes with moved := true }).emptySlots).trans
      (.mapPeers _ _)
  unfold State.shiftLane
  extract_lets was p1 p2 s1 s2 s3 p3 s4
  have h3 : s3 = (s.setLane l).setNotes { s.notes with moved := true } := by
    have hleft : (voting was && !voting .excluded) = true := by rw [show voting was = true from hv]; rfl
    have h2 : s2 = s1.emptySlots := if_neg (by decide)
    exact (if_pos hleft).trans (h2 ▸ hdrop)
  rw [if_neg hne]
  by_cases ha : s.lane.state = .active
  · have h4 : s4 = (s.setLane { l with permitMark := false }).setNotes { s.notes with moved := true } :=
      (if_pos (.inl ha)).trans (congrArg (fun t : State => t.setLane { t.lane with permitMark := false }) h3)
    refine ⟨{ l with permitMark := false }, ⟨hstate, by rw [if_pos ha]⟩, ?_⟩
    rw [h4]
    rfl
  · have h4 : s4 = (s.setLane l).setNotes { s.notes with moved := true } := (if_neg (by simp [was, ha])).trans h3
    refine ⟨l, ⟨hstate, by rw [if_neg ha]; exact hmark⟩, ?_⟩
    rw [h4]
    rfl

/-- Handing a frame to the partner changes the ports alone. -/
theorem handPartner_eq_setPorts (s : State) (f : LaneFrame) : s.handPartner f = s.setPorts (s.handPartner f).ports := by
  unfold State.handPartner
  split
  · rfl
  · rw [hand_eq]
    rfl

/-- The end of a donation that sends a JOIN-ABORT: the transfer engine fresh, and the frame handed to the partner's port
(R124, R138). -/
theorem donationOver_eq (s : State) (why : Reason) :
    ∃ l, l.state = s.lane.state ∧ l.permitMark = s.lane.permitMark ∧
      s.donationOver (some why) =
        ((s.setLane l).setXfer Transfer.fresh).setPorts (s.handPartner (.joinAbort why)).ports := by
  have hclear : (s.handPartner (.joinAbort why)).clearTransfer.SameLane
      ((s.setXfer Transfer.fresh).setPorts (s.handPartner (.joinAbort why)).ports) := by
    rw [handPartner_eq_setPorts]
    exact .mapPeers ((s.setXfer Transfer.fresh).setPorts _) _
  obtain ⟨l, hl, hstate, hmark⟩ := State.SameLane.trans (u := s.donationOver (some why))
    (.ite (.releaseHold _) (.refl _)) hclear
  exact ⟨l, hstate, hmark, hl⟩

/-- The state after a withdrawal that ends no donation, with the lane unit `l`: SELF_WITHDRAWN is noted, its frames are owed. -/
def State.withdrawnTo (s : State) (l : LaneUnit) : State :=
  ((s.noteKind .selfWithdrawn).setLane l).setNotes { moved := true, withdrawn := true }

/-- And after one that ends a donation, whose frame has yet to be placed (R138). -/
def State.withdrawnDonor (s : State) (l : LaneUnit) : State :=
  (((s.withdrawnTo l).setXfer Transfer.fresh).setPorts (s.handPartner (.joinAbort .donorLeft)).ports).raisedTo .joinFailed
    (min 1023 (s.pressure.p + 16))

/-- A withdrawal of a lane that votes and is no ACTIVE donor. -/
theorem selfWithdraw_of_no_donation (hv : voting s.lane.state = true) (hp : s.pressure.p ≤ 1023)
    (h : ¬ (s.lane.state = .active ∧ s.xfer.role = .donor)) :
    ∃ l, s.lane.Excludes l ∧ s.selfWithdraw = s.withdrawnTo l := by
  obtain ⟨l, hl, hshift⟩ :=
    shiftLane_excluded (s := (s.noteKind .selfWithdrawn).setNotes { s.notes with withdrawn := true }) hv
  refine ⟨l, hl, ?_⟩
  rw [State.selfWithdraw, show FaultKind.selfWithdrawn.weight = 0 from rfl, raiseCore_zero hp]
  exact hshift.trans (if_neg h)

/-- A withdrawal of an ACTIVE donor: the donation ends with its JOIN-ABORT, its JOIN_FAILED and its frame. -/
theorem selfWithdraw_of_donor (ha : s.lane.state = .active) (hrole : s.xfer.role = .donor) (hp : s.pressure.p ≤ 1023) :
    ∃ l, s.lane.Excludes l ∧ s.selfWithdraw = (s.withdrawnDonor l).placeFrame (donateFrame none 0 .donorLeft) := by
  have hv : voting s.lane.state = true := by rw [ha]; rfl
  obtain ⟨l, ⟨hstate, hmark⟩, hshift⟩ :=
    shiftLane_excluded (s := (s.noteKind .selfWithdrawn).setNotes { s.notes with withdrawn := true }) hv
  obtain ⟨l', hstate', hmark', hover⟩ := donationOver_eq (s.withdrawnTo l) .donorLeft
  have hports : ((s.withdrawnTo l).handPartner (.joinAbort .donorLeft)).ports =
      (s.handPartner (.joinAbort .donorLeft)).ports := by
    have hpartner : (s.withdrawnTo l).xfer.partner = s.xfer.partner := rfl
    unfold State.handPartner
    rw [hpartner]
    split
    · rfl
    · rw [hand_eq, hand_eq]; rfl
  refine ⟨l', ⟨hstate'.trans hstate, hmark'.trans hmark⟩, ?_⟩
  rw [State.selfWithdraw, show FaultKind.selfWithdrawn.weight = 0 from rfl, raiseCore_zero hp]
  refine hshift.trans ((if_pos ⟨ha, hrole⟩).trans ?_)
  change (((s.withdrawnTo l).donationOver _).raiseCore _ _).placeFrame _ = _
  rw [hover, hports, raiseCore_eq]
  rfl

end Withdrawal

/-! ### The slots of the fault store (R149) -/

section Slots

variable {s : State} {f g : FaultFrame}

/-- A frame with both slots in use: the indicator is set, and a secondary of a lower family gives way. -/
theorem placeFrame_full {h : FaultFrame} (hp : s.faults.primary = some g) (hs : s.faults.secondary = some h) :
    s.placeFrame f = s.setFaults { s.faults with
      secondary := if h.rank < f.rank then some f else some h, lost := true } := by
  simp only [State.placeFrame, hp, hs]
  split_ifs
  · rfl
  · rw [← hp, ← hs]

/-- A frame changes the slots and the indicator alone. -/
theorem placeFrame_eq (s : State) (f : FaultFrame) :
    ∃ a b c, s.placeFrame f = s.setFaults { s.faults with primary := a, secondary := b, lost := c } := by
  cases hp : s.faults.primary with
  | none => exact ⟨_, _, _, placeFrame_empty f hp⟩
  | some g =>
    cases hs : s.faults.secondary with
    | none => exact ⟨_, _, _, placeFrame_behind hp hs⟩
    | some h => exact ⟨_, _, _, placeFrame_full hp hs⟩

end Slots

/-! ### The pace level after a raise (R48) -/

section RaisePace

variable {s : State}

theorem pace_raisedTo {k : FaultKind} {q : Nat} (h : q ≠ s.pressure.p) :
    (s.raisedTo k q).patrol.pace = paceAfter q s.patrol.pace := if_neg h

/-- With P at 512 or more the pace level is 2 after a change of P and stays 2 without one. -/
theorem pace_raisedTo_high {k : FaultKind} {q : Nat} (hpace : s.patrol.pace = 2) (hq : 512 ≤ q) :
    (s.raisedTo k q).patrol.pace = 2 := by
  change (if q = s.pressure.p then s.patrol.pace else paceAfter q s.patrol.pace) = 2
  rw [paceAfter_from_512 _ hq, hpace, ite_self]

/-- A withdrawal keeps pace level 2: the JOIN_FAILED of a donation it ends only adds to P. -/
theorem pace_selfWithdraw (hv : voting s.lane.state = true) (hp : s.pressure.p ≤ 1023) (hhigh : 768 ≤ s.pressure.p)
    (hpace : s.patrol.pace = 2) : s.selfWithdraw.patrol.pace = 2 := by
  by_cases hdonor : s.lane.state = .active ∧ s.xfer.role = .donor
  · obtain ⟨l, -, hl⟩ := selfWithdraw_of_donor hdonor.1 hdonor.2 hp
    obtain ⟨a, b, c, hplace⟩ := placeFrame_eq (s.withdrawnDonor l) (donateFrame none 0 .donorLeft)
    rw [hl, hplace]
    exact pace_raisedTo_high (k := .joinFailed) hpace (by omega)
  · obtain ⟨l, -, hl⟩ := selfWithdraw_of_no_donation hv hp hdonor
    rw [hl]
    exact hpace

theorem pace_raise {k : FaultKind} {w : Nat} (hw : w ≠ 0) (hp : s.pressure.p < 1023) :
    (s.raise k w).patrol.pace = paceAfter (min 1023 (s.pressure.p + w)) s.patrol.pace := by
  have hchange : min 1023 (s.pressure.p + w) ≠ s.pressure.p := by omega
  have htop : min 1023 (s.pressure.p + w) ≤ 1023 := Nat.min_le_left _ _
  by_cases h : s.pressure.p < 768 ∧ 768 ≤ min 1023 (s.pressure.p + w) ∧ voting s.lane.state = true
  · obtain ⟨hlow, hhigh, hv⟩ := h
    have htwo (level : Nat) : paceAfter (min 1023 (s.pressure.p + w)) level = 2 := paceAfter_from_512 level (by omega)
    rw [raise_withdraws hlow hhigh hv, htwo]
    exact pace_selfWithdraw (s := s.raisedTo k _) hv htop hhigh ((pace_raisedTo hchange).trans (htwo _))
  · rw [raise_stays h, pace_raisedTo hchange]

end RaisePace

/-- Settles O31: the table band by band, then the decay and the raise, whose P differs from P before. -/
theorem paceFollowsPressure : Obligations.PaceFollowsPressure := by
  refine ⟨fun p h _ => ?_, fun p h h' => ?_, fun p h h' => ?_, fun p h h' => ?_, fun p h => ?_, fun s n hout ht hp => ?_,
    fun s k w hw hp => pace_raise hw hp⟩
  · exact ⟨paceAfter_from_512 0 h, paceAfter_from_512 1 h, paceAfter_from_512 2 h⟩
  · exact ⟨paceAfter_448_to_511 0 h h', paceAfter_448_to_511 1 h h', paceAfter_448_to_511 2 h h'⟩
  · exact ⟨paceAfter_256_to_447 0 h h', paceAfter_256_to_447 1 h h', paceAfter_256_to_447 2 h h'⟩
  · exact ⟨paceAfter_192_to_255 0 h h', paceAfter_192_to_255 1 h h', paceAfter_192_to_255 2 h h'⟩
  · exact ⟨paceAfter_to_191 0 h, paceAfter_to_191 1 h, paceAfter_to_191 2 h⟩
  · refine ⟨s.decay, exec_decayTimerExpiry hout ht, ?_⟩
    rw [decay_eq, if_neg hp]

/-- Settles O60: the raise by whether it withdraws the lane, the withdrawal by whether it ends a donation, the frame by the slots
in use. -/
theorem faultsAreRaisedAndPlaced : Obligations.FaultsAreRaisedAndPlaced := by
  intro s k w f p q high votes t family
  have htop : q ≤ 1023 := Nat.min_le_left _ _
  have hrank : ∀ x, family x = x.rank := fun x => by cases x <;> rfl
  refine ⟨fun hq => raise_low (by omega), fun h => ?_, fun ⟨hp, hq⟩ ha hrole => ?_, fun ⟨hp, hq, hv⟩ hdonor => ?_,
    fun hprim => placeFrame_empty f hprim, fun g hp hs => placeFrame_behind hp hs, fun g h hp hs => ?_⟩
  · have ht : t = s.raisedTo k q := raise_stays fun ⟨hp, hq, hv⟩ => h ⟨hp, hq, voting_iff.mp hv⟩
    rw [ht]
    exact ⟨rfl, rfl, rfl, rfl, rfl, fun hne => pace_raisedTo hne⟩
  · have ht : t = (s.raisedTo k q).selfWithdraw := raise_withdraws hp hq (voting_iff.mpr (.inr ha))
    obtain ⟨l, ⟨hstate, hmark⟩, hl⟩ := selfWithdraw_of_donor (s := s.raisedTo k q) ha hrole htop
    obtain ⟨a, b, c, hplace⟩ := placeFrame_eq ((s.raisedTo k q).withdrawnDonor l) (donateFrame none 0 .donorLeft)
    refine ⟨?_, ?_, ?_, ?_, ?_, ?_, ?_, ?_, fun d x hpartner => ?_, fun hprim => ?_⟩
    case refine_10 => rw [ht, hl, placeFrame_empty _ (by exact hprim)]; rfl
    all_goals rw [ht, hl, hplace]
    · exact hstate
    · exact hmark.trans (if_pos ha)
    · rfl
    · rfl
    · exact or_highKinds_of_not (p := q) (by omega) _
    · rfl
    · rfl
    · rfl
    · change ((s.raisedTo k q).handPartner _).ports = _
      rw [handPartner_eq (by exact hpartner), hand_eq, hand_eq]
      rfl
  · have ht : t = (s.raisedTo k q).selfWithdraw := raise_withdraws hp hq (voting_iff.mpr hv)
    obtain ⟨l, ⟨hstate, hmark⟩, hl⟩ := selfWithdraw_of_no_donation (s := s.raisedTo k q) (voting_iff.mpr hv) htop hdonor
    rw [ht, hl]
    exact ⟨hstate, hmark, rfl, rfl, rfl, rfl, rfl⟩
  · rw [placeFrame_full hp hs, hrank, hrank]
    rfl

end Sys2Proof.Machine
end

section
/-! The end of start-up: what the commissioning read and the scan of the headers leave, and the pre-erase that follows
(R37, R45, R96 to R98, R141, R166). -/

namespace Sys2Proof.Machine

/-! ### The commissioning read (R166 step 1) -/

/-- The record in use after the commissioning read is a valid stored record, clamped. -/
theorem inUse_commissioningRead (a : RetArray) :
    (commissioningRead a).inUse =
      match readRecord a.record with
      | .record r _ => if failingRecord r = none then some (clampRecord r) else none
      | _ => none := by
  unfold commissioningRead
  cases readRecord a.record with
  | erased => rfl
  | checkFailure => rfl
  | record r c => cases h : failingRecord r <;> simp [testStored, h]

/-- A high mark in use is at least 1 (R161). -/
theorem highMark_pos {s : State} (a : RetArray) (h : s.comm = commissioningRead a) : 0 < s.highMark := by
  unfold State.highMark State.param
  rw [h]
  cases ht : testStored (readRecord a.record) with
  | error e => simp only [commissioningRead, ht]; decide
  | ok r => simp only [commissioningRead, ht, clampRecord]; omega

/-! ### The headers (R96) -/

/-- A header makes its slot COMPLETE, ERASED or INVALID. -/
theorem headerEntry_state (x : SlotStore) :
    (headerEntry x).state = .complete ∨ (headerEntry x).state = .erased ∨ (headerEntry x).state = .invalid := by
  unfold headerEntry
  split
  · dsimp only
    split_ifs
    · exact .inl rfl
    · exact .inr (.inr rfl)
  · split_ifs
    · exact .inr (.inl rfl)
    · exact .inr (.inr rfl)
  · exact .inr (.inr rfl)

/-- The checkpoint engine with the directory as the headers give it. -/
def Checkpoint.scanned (k : Checkpoint) (a : RetArray) : Checkpoint :=
  { k with
    slot0 := headerEntry a.slot0, slot1 := headerEntry a.slot1
    highest := highestSeen (headerEntry a.slot0) (headerEntry a.slot1) }

/-! ### The event (R166) -/

section StartUp

variable {s : State}

/-- The alert mask with the record in use, or with none (R141). -/
def maskInUse : Option CommRecord → KindSet
  | none => BitVec.allOnes 21
  | some r => r.alertMask

theorem maskInUse_eq (x : Option CommRecord) : maskInUse x = (x.map (fun r => r.alertMask)).getD (BitVec.allOnes 21) := by
  cases x <;> rfl

/-- The part as start-up leaves it with the array reading `a`, before its STATE frame is sent and the pre-erase begins. -/
def State.startedUp (s : State) (a : RetArray) : State :=
  let u := s.setComm (commissioningRead a)
  { u with
    phase := .running, array := a, ctl := { op := none, suspended := none, waiting := [] }
    ckpt := s.ckpt.scanned a
    faults := { s.faults with mask := maskInUse u.comm.inUse }
    lane := { s.lane with
      state := if u.comm.inUse.isSome then .standby else .config
      peer1 := Peer.fresh (u.laneOn .one), peer2 := Peer.fresh (u.laneOn .two) }
    patrol := { s.patrol with
      cursor := u.mappedPages.head?, timer := some (visitInterval u.patrolBase s.patrol.pace) }
    pressure := { s.pressure with timer := some u.decayPeriod } }

theorem completeStartUp_eq (s : State) (lost : List ArrayArea) :
    s.completeStartUp lost =
      (s.startedUp (lost.foldl loseArea s.array)).handBoth
        (.state (s.startedUp (lost.foldl loseArea s.array)).lane.state s.lane.lastClosed) := by
  simp only [State.completeStartUp, State.startedUp, State.freshPeers, State.setArray, State.setComm, State.setCkpt, State.setCtl,
    State.setFaults, State.setLane, State.setPatrol, State.setPressure, State.setPhase]
  rfl

/-- The part after the pre-erase of the slot `i` has begun with a free controller (R98). -/
def State.erasing (s : State) (i : SlotId) : State :=
  { s with
    ctl := { s.ctl with op := some (.eraseSector i 0) }
    ckpt := { (s.ckpt.putSlot i { SlotEntry.unknown with state := .erasing }) with
      state := .erasing, target := i, erased := 0 } }

/-- The headers have just been scanned: the engine is IDLE without a hold, no slot is being erased or written, and the controller
is free. -/
structure State.Scanned (s : State) : Prop where
  idle : s.ckpt.state = .idle
  hold : s.ckpt.hold = false
  slot : ∀ i, (s.ckpt.slot i).state = .complete ∨ (s.ckpt.slot i).state = .erased ∨ (s.ckpt.slot i).state = .invalid
  free : s.ctl.op = none

theorem scanned_startedUp (h : s.ckpt = State.cold.ckpt) (a : RetArray) : (s.startedUp a).Scanned where
  idle := (congrArg Checkpoint.state h :)
  hold := (congrArg Checkpoint.hold h :)
  slot i := by cases i <;> exact headerEntry_state _
  free := rfl

theorem State.Scanned.handBoth (h : s.Scanned) (f : LaneFrame) : (s.handBoth f).Scanned := by
  rw [handBoth_eq]
  exact { h with }

/-- The pre-erase after a scan: an inactive slot that is not ERASED is COMPLETE or INVALID, and is erased. -/
theorem startPreErase_scanned (h : s.Scanned) :
    s.startPreErase =
      if (s.ckpt.slot s.ckpt.inactive).state = .erased then s else s.erasing s.ckpt.inactive := by
  have hslot := h.slot s.ckpt.inactive
  by_cases he : (s.ckpt.slot s.ckpt.inactive).state = .erased
  · rw [if_pos he, State.startPreErase, he]
    exact if_neg (by simp)
  · rw [if_neg he, startPreErase_of_due h.idle h.hold (by tauto)]
    exact ask_of_free (s := s.setCkpt _) h.free (by simp)

/-- The pre-erase changes the controller and the checkpoint engine alone. -/
theorem startPreErase_eq_set (h : s.Scanned) : ∃ x y, s.startPreErase = (s.setCtl x).setCkpt y := by
  rw [startPreErase_scanned h]
  split_ifs
  · exact ⟨s.ctl, s.ckpt, rfl⟩
  · exact ⟨(s.erasing s.ckpt.inactive).ctl, (s.erasing s.ckpt.inactive).ckpt, rfl⟩

/-- The pre-erase does not look at the ports. -/
theorem startPreErase_handBoth (h : s.Scanned) (f : LaneFrame) :
    (s.handBoth f).startPreErase = s.startPreErase.handBoth f := by
  have hports := handBoth_eq s f
  rw [startPreErase_scanned h, startPreErase_scanned (h.handBoth f), hports]
  change (if (s.ckpt.slot s.ckpt.inactive).state = .erased then _ else _) = _
  split_ifs
  · exact hports.symm
  · rw [handBoth_eq]
    rfl

/-- No block but the checkpoint engine has anything to begin: no close, no page to restore, no transfer, an empty queue. -/
structure State.NothingBegun (s : State) : Prop where
  close : s.lane.close = none
  list : s.rest.list = []
  role : s.xfer.role = .none
  queue : s.queue = { entries := [], run := false }
  highMark : 0 < s.highMark

namespace State.NothingBegun

variable (h : s.NothingBegun)
include h

theorem closeStands : s.closeStands = true := by simp only [State.closeStands, h.close]

theorem donorStands : s.donorStands = true := by simp [State.donorStands, h.role]

theorem checkStands : s.checkStands = true := by simp [State.checkStands, h.role]

theorem runStands : s.runStands = true := by
  have := h.highMark
  simp only [State.runStands, h.queue, List.length_nil]
  rw [if_neg (by omega)]
  exact ite_self _

theorem still (hflight : s.flightStands = true) (herase : s.eraseStands = true) : s.still :=
  ⟨h.closeStands, .inr h.list, hflight, h.donorStands, h.checkStands, h.runStands, herase⟩

theorem settle (hrun : s.phase = .running) (hidle : s.ckpt.state = .idle) : s.settle = s.startPreErase :=
  (if_pos hrun).trans (settleBlocks_of_erase h.closeStands (.inr h.list) (by simp [State.inFlight, hidle]) h.donorStands
    h.checkStands h.runStands)

/-- After a scan the part settles into the pre-erase, and then has nothing to begin. -/
theorem settles_scanned (hrun : s.phase = .running) (hscan : s.Scanned) :
    s.settle = s.startPreErase ∧ s.startPreErase.still := by
  refine ⟨h.settle hrun hscan.idle, ?_⟩
  rw [startPreErase_scanned hscan]
  split_ifs with he
  · exact h.still (by simp only [State.flightStands, hscan.idle]) (by simp [State.eraseStands, he])
  · have herasing : (s.erasing s.ckpt.inactive).NothingBegun := { h with }
    exact herasing.still rfl rfl

end State.NothingBegun

/-- The lines of a running part that is not ACTIVE and holds no fault. -/
theorem drivePins_fresh (hrun : s.phase = .running) (hlane : s.lane.state ≠ .active) (hacc : s.faults.accrued = 0)
    (hprim : s.faults.primary = none) :
    s.drivePins = s.setPins { started := true, alert := false, permit := false, permitHigh := false } := by
  have halert : s.alertCond = false := by
    rw [State.alertCond, hacc, hprim, show (0 : KindSet) &&& s.faults.mask = 0 from BitVec.zero_and]
    rfl
  have hpermit : s.permitCond = false := by simp [State.permitCond, hlane]
  simp only [State.drivePins, halert, hpermit, hrun, decide_true, Bool.false_and]

theorem readsDone_of_idle (hjob : s.link.job = none) (hsecond : s.link.second = none) : s.readsDone :=
  ⟨hsecond, by rw [State.readWaits, hjob]⟩

/-- START_UP_COMPLETE in a part whose blocks are as a reset leaves them. -/
theorem exec_startUpComplete {lost : List ArrayArea} {a : RetArray} (ha : a = lost.foldl loseArea s.array)
    (hphase : s.phase = .startUp) (hqueue : s.queue = State.cold.queue) (hlane : s.lane = State.cold.lane)
    (hckpt : s.ckpt = State.cold.ckpt) (hrest : s.rest = State.cold.rest) (hxfer : s.xfer = State.cold.xfer)
    (hfaults : s.faults = State.cold.faults) (hquiet : s.quiet) (hjob : s.link.job = none) (hsecond : s.link.second = none) :
    exec (.startUpComplete lost) s = .next
      (((s.startedUp a).startPreErase.setPins { started := true, alert := false, permit := false, permitHigh := false }).handBoth
        (.state (s.startedUp a).lane.state s.lane.lastClosed)) := by
  obtain ⟨f, hf⟩ : ∃ f, f = LaneFrame.state (s.startedUp a).lane.state s.lane.lastClosed := ⟨_, rfl⟩
  have hscan := scanned_startedUp hckpt a
  have hbegun : ((s.startedUp a).handBoth f).NothingBegun := by
    rw [handBoth_eq]
    exact {
      close := (congrArg LaneUnit.close hlane :)
      list := (congrArg Restore.list hrest :)
      role := (congrArg Transfer.role hxfer :)
      queue := hqueue
      highMark := highMark_pos a rfl }
  obtain ⟨hsettle, hstill⟩ := hbegun.settles_scanned (by rw [handBoth_eq]; rfl) (hscan.handBoth f)
  obtain ⟨x, y, hset⟩ := startPreErase_eq_set hscan
  rw [startPreErase_handBoth hscan, hset] at hsettle hstill
  have hreads : ((((s.startedUp a).setCtl x).setCkpt y).handBoth f).readsDone := by
    rw [handBoth_eq]
    exact readsDone_of_idle hjob hsecond
  have hlines := drivePins_fresh (s := ((s.startedUp a).setCtl x).setCkpt y) rfl
    (by change (if _ then LaneState.standby else .config) ≠ _; split_ifs <;> decide)
    (congrArg FaultStore.accrued hfaults :) (congrArg FaultStore.primary hfaults :)
  have hevent : s.event (fun t => t.completeStartUp lost) =
      ((((s.startedUp a).setCtl x).setCkpt y).handBoth f).closeEvent := by
    refine event_of_settle ?_ (settle_of_still hstill) hreads
    rw [completeStartUp_eq, ← ha, ← hf]
    exact hsettle
  change execStartUpComplete lost s = _
  rw [execStartUpComplete, if_pos hphase, hevent, closeEvent_of_quiet (by rw [handBoth_eq]; exact hquiet),
    drivePins_handBoth, hlines, hset, hf]

end StartUp

/-- Settles O24: the event settles into the pre-erase of the inactive slot where the scan has not found it ERASED. -/
theorem startUpReadsRecordAndHeaders : Obligations.StartUpReadsRecordAndHeaders := by
  intro s lost hphase _ hqueue hpatrol _ hlane hckpt hrest hxfer hfaults _ hpins hquiet hjob hsecond a stored inUse entry e0
    e1 k c st u slot erases scanned
  have hexec := exec_startUpComplete (a := a) (lost := lost) rfl hphase hqueue hlane hckpt hrest hxfer hfaults hquiet hjob
    hsecond
  have hinUse : inUse = (commissioningRead a).inUse := (inUse_commissioningRead a).symm
  have hu : u = s.setComm (commissioningRead a) :=
    congrArg (fun x => s.setComm { (commissioningRead a) with inUse := x }) hinUse
  have hst : st = (s.startedUp a).lane.state := congrArg (fun x => if x.isSome = true then LaneState.standby else .config) hinUse
  have hfaultsUp : (s.startedUp a).faults =
      { s.faults with mask := (inUse.map (fun r => r.alertMask)).getD (BitVec.allOnes 21) } := by
    rw [hinUse, ← maskInUse_eq]
    rfl
  have hlaneUp : (s.startedUp a).lane = { s.lane with
      state := st, peer1 := { s.lane.peer1 with lane := u.laneOn .one }
      peer2 := { s.lane.peer2 with lane := u.laneOn .two } } := by
    rw [hst, hu, State.startedUp, hlane]
    rfl
  have hpatrolUp : (s.startedUp a).patrol =
      { s.patrol with cursor := u.mappedPages.head?, timer := some u.patrolBase } := by
    rw [hu, State.startedUp, hpatrol]
    rfl
  have hpressureUp : (s.startedUp a).pressure = { s.pressure with timer := some u.decayPeriod } := by
    rw [hu]
    rfl
  have hpinsUp : ({ started := true, alert := false, permit := false, permitHigh := false } : Pins) =
      { s.pins with started := true } := by
    rw [hpins]
    rfl
  have hclosed : s.lane.lastClosed = 0 := by
    rw [hlane]
    rfl
  rw [startPreErase_scanned (scanned_startedUp hckpt a)] at hexec
  rw [hexec, ← hfaultsUp, ← hlaneUp, ← hpatrolUp, ← hpressureUp, ← hpinsUp, hst, hclosed, hu]
  refine congrArg (fun v : State => Host.Outcome.next (v.handBoth _)) ?_
  by_cases he : ((s.startedUp a).ckpt.slot (s.startedUp a).ckpt.inactive).state = .erased
  · have herases : erases = false := decide_eq_false (not_not_intro he)
    simp only [if_pos he, herases, Bool.false_eq_true, if_false]
    rfl
  · have herases : erases = true := decide_eq_true he
    simp only [if_neg he, herases, if_true]
    rfl

end Sys2Proof.Machine
end

section
/-! CYCLE RECORD: the search of the history and its answer (R62). -/

namespace Sys2Proof.Machine

section CycleRecord

variable {s : State} {r : Request} {which : Option Half}

theorem execCycleRecord_notFound (hs : s.serves .cycleRecord r) (hargs : cycleRecordArgs r.body = some which)
    (h : s.findRecord which = none) :
    exec (.cycleRecord r) s = .next (s.replying .cycleRecord r.tag .notFound .empty) := by
  have hd : s.working.onCycleRecord r = s.working.refuse .cycleRecord r.tag .notFound := by
    simp only [State.onCycleRecord, hargs, show s.working.findRecord which = none from h]
  exact congrArg Host.Outcome.next
    (plain_reply_same (u := s.working) (ups := []) hs hd rfl rfl (by decide) rfl rfl rfl rfl)

theorem execCycleRecord_found {x : CycleRecord} (hs : s.serves .cycleRecord r) (hargs : cycleRecordArgs r.body = some which)
    (h : s.findRecord which = some x) :
    exec (.cycleRecord r) s = .next (s.replying .cycleRecord r.tag .ok (.cycleRecord x)) := by
  have hd : s.working.onCycleRecord r = s.working.answer .cycleRecord r.tag .ok (.cycleRecord x) := by
    simp only [State.onCycleRecord, hargs, show s.working.findRecord which = some x from h]
  exact congrArg Host.Outcome.next
    (plain_reply_same (u := s.working) (ups := []) hs hd rfl rfl (by decide) rfl rfl rfl rfl)

/-- No record of the cycle is held. -/
theorem findRecord_cycle_none {n : Half} (h : ∀ x ∈ s.lane.history, x.cycle ≠ n) : s.findRecord (some n) = none :=
  List.find?_eq_none.mpr fun x hx => by simpa using h x (List.mem_reverse.mp hx)

/-- The newest of a cycle's records is the one behind which no other of the cycle stands. -/
theorem findRecord_cycle_newest {n : Half} {older newer : List CycleRecord} {x : CycleRecord}
    (hh : s.lane.history = older ++ x :: newer) (hx : x.cycle = n) (hnewer : ∀ y ∈ newer, y.cycle ≠ n) :
    s.findRecord (some n) = some x := by
  have hrev : s.lane.history.reverse = newer.reverse ++ x :: older.reverse := by simp [hh]
  refine List.find?_eq_some_iff_append.mpr ⟨beq_iff_eq.mpr hx, newer.reverse, older.reverse, hrev, fun y hy => ?_⟩
  simpa using hnewer y (List.mem_reverse.mp hy)

end CycleRecord

/-- Settles O4: what the history is searched for, and the answer for what is found. -/
theorem cycleRecordGivesTheNewestRecord : Obligations.CycleRecordGivesTheNewestRecord := by
  intro s r hs
  refine ⟨fun hb hh => ?_, fun older x hb hh => ?_, fun c1 c0 hb hnone => ?_,
    fun c1 c0 older x newer hb hh hx hnewer => ?_⟩
  · exact execCycleRecord_notFound hs (by rw [hb]; rfl) (which := none) (by simp [State.findRecord, hh])
  · exact execCycleRecord_found hs (by rw [hb]; rfl) (which := none) (by simp [State.findRecord, hh])
  · exact execCycleRecord_notFound hs (by rw [hb]; rfl) (findRecord_cycle_none hnone)
  · exact execCycleRecord_found hs (by rw [hb]; rfl) (findRecord_cycle_newest hh hx hnewer)

end Sys2Proof.Machine
end

section
/-! CLOSE: its checks in order, and the close an accepted one begins (R53 to R55, R98, R99). -/

namespace Sys2Proof.Machine

section Close

variable {s : State} {r : Request} {c1 c0 o : Byte} {c : Close}

/-! ### The checks and the acceptance (R53, R55, R99) -/

/-- A CLOSE that a check refuses changes nothing but the reply. -/
theorem execClose_refused {st : Status} (hstill : s.still) (hs : s.serves .close r) (hb : r.body = [c1, c0, o])
    (h : s.closeRefusal (half c1 c0) o.toNat = some st) (hst : st ≠ .starting) :
    exec (.close r) s = .next (s.replying .close r.tag st .empty) := by
  have hd : s.working.onClose r = s.working.refuse .close r.tag st := by
    simp only [State.onClose, hb, closeArgs, show s.working.closeRefusal (half c1 c0) o.toNat = some st from h]
  exact congrArg Host.Outcome.next (event_refused (ups := []) hs hstill hd hst)

/-- A CLOSE for cycle `n` as its acceptance leaves it (R55). -/
def Close.accepted (n : Half) (withCheckpoint : Bool) : Close :=
  { cycle := n, withCheckpoint := withCheckpoint, stage := .draining, vote := .notStarted, signature := none }

/-- The slot whose pre-erase starts when the erase hold clears (R99; log entry 54). -/
def Checkpoint.again (k : Checkpoint) : SlotId := if (k.slot k.inactive).state = .erased then k.target else k.inactive

/-- The checkpoint engine at the start of the pre-erase of `slot`, its hold clear (R98). -/
def Checkpoint.erasesAgain (k : Checkpoint) (slot : SlotId) : Checkpoint :=
  { (k.putSlot slot { state := .erasing, generation := none, cycle := none, start := none }) with
    state := .erasing, erased := 0, hold := false, target := slot }

/-- The hold clears before the slot is put down as ERASING. -/
theorem erasesAgain_eq (k : Checkpoint) (slot : SlotId) :
    k.erasesAgain slot =
      { (({ k with hold := false } : Checkpoint).putSlot slot
          { state := .erasing, generation := none, cycle := none, start := none }) with
        state := .erasing, target := slot, erased := 0 } := by
  cases slot <;> rfl

/-- The part once a CLOSE has been accepted, `c` being the close in progress (R55). -/
def State.closeTaken (s : State) (c : Close) : State :=
  { s with
    faults := { s.faults with current := 0 }
    queue := { s.queue with entries := s.queue.entries.map (fun e => { e with closing := true }) }
    ckpt := if s.ckpt.hold = true then s.ckpt.erasesAgain s.ckpt.again else s.ckpt
    ctl := if s.ckpt.hold = true then { s.ctl with op := some (.eraseSector s.ckpt.again 0) } else s.ctl
    lane := { s.lane with close := some c } }

/-- What an erase hold needs for its pre-erase to start at once when it clears. -/
abbrev State.holdCanEnd (s : State) : Prop :=
  s.ckpt.hold = true → s.ckpt.state = .idle ∧ s.ctl.op = none ∧ (s.ckpt.slot s.ckpt.inactive).state ≠ .writing ∧
    (s.ckpt.slot s.ckpt.inactive).state ≠ .erasing

/-- A pre-erase at a free controller starts at once. -/
theorem preErase_of_free (h : s.ctl.op = none) (slot : SlotId) :
    s.preErase slot = { s with
      ckpt := { (s.ckpt.putSlot slot { state := .erasing, generation := none, cycle := none, start := none }) with
        state := .erasing, target := slot, erased := 0 }
      ctl := { s.ctl with op := some (.eraseSector slot 0) } } :=
  ask_of_free (s := s.setCkpt _) h (by simp)

/-- With a free controller a hold that clears is a pre-erase that has started. -/
theorem clearHold_eq (h : s.holdCanEnd) :
    s.clearHold = { s with
      ckpt := if s.ckpt.hold = true then s.ckpt.erasesAgain s.ckpt.again else s.ckpt
      ctl := if s.ckpt.hold = true then { s.ctl with op := some (.eraseSector s.ckpt.again 0) } else s.ctl } := by
  by_cases hhold : s.ckpt.hold = true
  · obtain ⟨hidle, hop, hw, he⟩ := h hhold
    rw [clearHold_of_held hhold hidle hw he, preErase_of_free (s := s.setCkpt { s.ckpt with hold := false }) hop,
      if_pos hhold, if_pos hhold]
    exact congrArg (fun k => ({ s with ckpt := k, ctl := { s.ctl with op := some (.eraseSector s.ckpt.again 0) } } : State))
      (erasesAgain_eq s.ckpt s.ckpt.again).symm
  · rw [clearHold_of_clear (by simpa using hhold), if_neg hhold, if_neg hhold]

theorem acceptClose_eq (h : s.holdCanEnd) (n : Half) (w : Bool) : s.acceptClose n w = s.closeTaken (.accepted n w) :=
  clearHold_eq (s := ((s.setFaults { s.faults with current := 0 }).setQueue { s.queue with
    entries := s.queue.entries.map (fun e => { e with closing := true }) }).setLane { s.lane with
    close := some (.accepted n w) }) h

/-! ### What the acceptance sets off (R55, R56) -/

/-- The engine of a taken close is as before, or erases. -/
theorem ckpt_closeTaken (s : State) (c : Close) :
    (s.closeTaken c).ckpt = s.ckpt ∨ (s.closeTaken c).ckpt.state = .erasing := by
  by_cases hhold : s.ckpt.hold = true
  · exact .inr (congrArg Checkpoint.state (if_pos hhold))
  · exact .inl (if_neg hhold)

/-- Stillness does not look at the signature unit. -/
theorem still_setSign {g : SignUnit} : (s.setSign g).still ↔ s.still := Iff.rfl

/-- A close that has been taken sets off nothing but what it may begin itself. -/
theorem still_closeTaken (hstill : s.still) (hnone : s.lane.close = none) (hpass : c.stage ≠ .closingPass)
    (hc : (s.closeTaken c).closeStands = true) : (s.closeTaken c).still := by
  obtain ⟨-, hrest, hflight, hdonor, hcheck, hrun, herase⟩ := hstill
  have hdonor' : (s.closeTaken c).donorStands = true := by
    have hbefore : s.closingPassRuns = false := by simp only [State.closingPassRuns, hnone]
    have hafter : (s.closeTaken c).closingPassRuns = false := decide_eq_false hpass
    rw [← hdonor, State.donorStands, State.donorStands, hbefore, hafter]
    rfl
  have hrun' : (s.closeTaken c).runStands = true := by
    rw [← hrun, State.runStands, State.runStands]
    simp only [State.closeTaken, List.length_map]
    rfl
  have hengine : (s.closeTaken c).flightStands = true ∧ (s.closeTaken c).eraseStands = true := by
    rcases ckpt_closeTaken s c with hsame | hstate
    · exact ⟨flightStands_congr hflight rfl hsame rfl, eraseStands_congr herase hsame⟩
    · constructor
      · rw [State.flightStands, hstate]
      · rw [State.eraseStands, hstate]
        rfl
  exact ⟨hc, hrest, hengine.1, hdonor', hcheck, hrun', hengine.2⟩

/-- An accepted CLOSE with entries queued waits for them to drain. -/
theorem execClose_drains (hstill : s.still) (hs : s.serves .close r) (hnone : s.lane.close = none)
    (hstage : c.stage = .draining) (hqueue : s.queue.entries ≠ [])
    (hd : s.working.onClose r = (s.working.closeTaken c).refuse .close r.tag .accepted) :
    exec (.close r) s = .next ((s.closeTaken c).replying .close r.tag .accepted .empty) := by
  have ⟨_, _, hj, h2, _⟩ := hs
  have hc : (s.closeTaken c).closeStands = true := by
    obtain ⟨e, rest, he⟩ := List.exists_cons_of_ne_nil hqueue
    simp [State.closeStands, State.closeTaken, hstage, he]
  have hu : (s.working.closeTaken c).still := still_closeTaken hstill hnone (by simp [hstage]) hc
  exact congrArg Host.Outcome.next
    (event_reply_same (u := s.working.closeTaken c) (ups := []) hs hd rfl hj h2 rfl (by decide) hu rfl rfl rfl rfl)

/-- Nor has the pass that begins in the same event anything else to begin. -/
theorem still_signing (hstill : s.still) (hnone : s.lane.close = none) : ((s.closeTaken c).signing c).still :=
  still_setSign.mpr (still_closeTaken (c := { c with stage := .signing }) hstill hnone (by simp) rfl)

/-- A request whose answer leaves a close that begins to sign in the same event. -/
theorem event_answer_signs {u : State} {k : ReqKind} {st : Status} {b : ReplyBody} (hs : s.serves k r)
    (hd : s.working.dispatch k r [] = u.answer k r.tag st b) (hl : u.link.live = true)
    (hj : u.link.job = none) (h2 : u.link.second = none) (hn : u.notes = s.notes) (hst : st ≠ .starting)
    (hc : u.lane.close = some c) (hstage : c.stage = .draining) (hall : ∀ e ∈ u.queue.entries, e.closing = false)
    (hplan : u.signPlan ≠ []) (hstill : (u.signing c).still) (hp : u.pins = s.pins)
    (hperm : u.permitCond = s.permitCond) (hph : u.phase = s.phase) (ha : u.alertCond = s.alertCond) :
    s.event (fun t => t.takeRequest k r []) = (u.signing c).replying k r.tag st b := by
  have ⟨hphase, _, _, _, ⟨hlines, hquiet⟩, _⟩ := hs
  have hstill' : ((u.answer k r.tag st b).signing c).still := still_setLink.mpr hstill
  have hbegin : (u.answer k r.tag st b).beginClosePass = (u.answer k r.tag st b).signing c :=
    beginClosePass_signs hc hstage hall hplan
  have hsettle : (u.answer k r.tag st b).settle = (u.answer k r.tag st b).signing c := by
    obtain ⟨hclose, hrest, hflight, hdonor, hcheck, hrun, herase⟩ := hstill'
    rw [settle_of_signing (s := u.answer k r.tag st b) (hph.trans hphase) hbegin
      ⟨hclose, hrest, hflight, hdonor, hcheck, herase⟩,
      updateRun_of_runStands hrun]
  have hevent : s.event (fun t => t.takeRequest k r []) = ((u.answer k r.tag st b).signing c).closeEvent :=
    event_of_settle (by rw [takeRequest_of_serves hs, hd, hsettle]) (settle_of_still hstill') (readsDone_of_idle hj h2)
  rw [hevent, closeEvent_of_answer (s := (u.answer k r.tag st b).signing c) (k := k) (tag := r.tag) (st := st)
    (b := b) rfl hl hst (hn.trans hquiet.notes_eq)]
  exact drivePins_same (u := (u.signing c).replying k r.tag st b) hlines hp hperm hph ha

/-- An accepted CLOSE with an empty queue begins its pass in the same event. -/
theorem execClose_signs (hstill : s.still) (hs : s.serves .close r) (hnone : s.lane.close = none)
    (hstage : c.stage = .draining) (hqueue : s.queue.entries = []) (hplan : s.signPlan ≠ [])
    (hd : s.working.onClose r = (s.working.closeTaken c).refuse .close r.tag .accepted) :
    exec (.close r) s = .next (((s.closeTaken c).signing c).replying .close r.tag .accepted .empty) := by
  have ⟨_, _, hj, h2, _⟩ := hs
  have hall : ∀ e ∈ (s.working.closeTaken c).queue.entries, e.closing = false := by
    rw [show (s.working.closeTaken c).queue.entries = [] from List.map_eq_nil_iff.mpr hqueue]
    simp
  exact congrArg Host.Outcome.next
    (event_answer_signs (u := s.working.closeTaken c) hs hd rfl hj h2 rfl (by decide) rfl hstage hall hplan
      (still_signing (s := s.working) hstill hnone) rfl rfl rfl rfl)

/-- A CLOSE that passes its checks is taken. -/
theorem onClose_accepted (hb : r.body = [c1, c0, o]) (h : s.closeRefusal (half c1 c0) o.toNat = none)
    (hend : s.holdCanEnd) :
    s.working.onClose r =
      (s.working.closeTaken (.accepted (half c1 c0) (decide (o.toNat = 1)))).refuse .close r.tag .accepted := by
  simp only [State.onClose, hb, closeArgs, show s.working.closeRefusal (half c1 c0) o.toNat = none from h]
  rw [acceptClose_eq (s := s.working) hend]
  rfl

end Close

/-- Settles O33: each check that fails is an answer; an accepted CLOSE waits for the queue to drain, or signs at once. -/
theorem closeIsCheckedThenTaken : Obligations.CloseIsCheckedThenTaken := by
  intro s r c1 c0 o hstill hs hb n idleErased voting' taken inactive again u
  have hvoting : voting s.lane.state = true ↔ voting' := by simp [voting, voting']
  have hbusy : ¬ idleErased ↔
      s.ckpt.state ≠ .idle ∨ s.ckpt.hold = true ∨ (s.ckpt.slot s.ckpt.inactive).state ≠ .erased := by
    simp only [idleErased, not_and_or, Bool.not_eq_false, ne_eq]
  have hchecks : s.closeRefusal n o.toNat =
      if 1 < o.toNat then some .badField
      else if s.lane.state = .config ∨ s.lane.state = .joining then some .wrongState
      else if s.lane.close ≠ none then some .closePending
      else if voting' ∧ n ≠ s.lane.lastClosed + 1 then some .cycleOrder
      else if o.toNat = 1 ∧ ¬ idleErased then some .engineBusy
      else none := by
    simp only [State.closeRefusal, hvoting, hbusy, Option.isSome_iff_ne_none]
  have hrefused := fun st h => execClose_refused (st := st) hstill hs hb (hchecks.trans h)
  refine ⟨fun ho => ?_, fun ho hl => ?_, fun ho hconfig hjoining hclose => ?_, fun ho hopen hv hn => ?_,
    fun ho hconfig hjoining hopen hv hbad => ?_, fun ho hconfig hjoining hopen hv hgood hend => ?_⟩
  · exact hrefused _ (by rw [if_pos ho]) (by decide)
  · exact hrefused _ (by rw [if_neg (by omega), if_pos hl]) (by decide)
  · exact hrefused _ (by rw [if_neg (by omega), if_neg (not_or.mpr ⟨hconfig, hjoining⟩), if_pos hclose]) (by decide)
  · have hl : ¬ (s.lane.state = .config ∨ s.lane.state = .joining) := by rcases hv with hv | hv <;> simp [hv]
    exact hrefused _ (by rw [if_neg (by omega), if_neg hl, if_neg (not_not_intro hopen), if_pos ⟨hv, hn⟩]) (by decide)
  · have horder : ¬ (voting' ∧ n ≠ s.lane.lastClosed + 1) := fun h => h.2 (hv h.1)
    exact hrefused _ (by
      rw [if_neg (by omega), if_neg (not_or.mpr ⟨hconfig, hjoining⟩), if_neg (not_not_intro hopen), if_neg horder,
        if_pos ⟨ho, hbad⟩]) (by decide)
  · have horder : ¬ (voting' ∧ n ≠ s.lane.lastClosed + 1) := fun h => h.2 (hv h.1)
    have hfree : ¬ (o.toNat = 1 ∧ ¬ idleErased) := fun h => h.2 (hgood h.1)
    have hnone : s.closeRefusal n o.toNat = none := hchecks.trans (by
      rw [if_neg (by omega), if_neg (not_or.mpr ⟨hconfig, hjoining⟩), if_neg (not_not_intro hopen), if_neg horder,
        if_neg hfree])
    have htaken := onClose_accepted hb hnone hend
    have hdrains := execClose_drains hstill hs hopen (c := .accepted n (decide (o.toNat = 1))) rfl
    have hsigns := execClose_signs hstill hs hopen (c := .accepted n (decide (o.toNat = 1))) rfl
    exact ⟨fun hq => hdrains hq htaken, fun hq hplan => hsigns hq hplan htaken⟩

end Sys2Proof.Machine
end

section
/-! The symbols a signature pass feeds and the order of its pages (R56, R63, R65, R66). -/

namespace Sys2Proof.Machine

/-! ### Symbols and pairs (R63, R65) -/

theorem feedSymbol_eq (a b x : Nat) :
    feedSymbol (a, b) x = ((a + x + 1) % 65519, (b + (a + x + 1) % 65519) % 65519) := rfl

/-- Both halves are remainders of the modulus. -/
theorem feedSymbol_le (ab : Nat × Nat) (x : Nat) : (feedSymbol ab x).1 ≤ 65518 ∧ (feedSymbol ab x).2 ≤ 65518 :=
  ⟨Nat.le_of_lt_succ (Nat.mod_lt _ (by decide)), Nat.le_of_lt_succ (Nat.mod_lt _ (by decide))⟩

/-- A pair in its range is reported without loss. -/
theorem toNat_pairNumber {a b : Nat} (ha : a ≤ 65518) (hb : b ≤ 65518) : (pairNumber (a, b)).toNat = b * 65536 + a := by
  rw [pairNumber, BitVec.toNat_ofNat, Nat.mod_eq_of_lt (by omega)]

theorem cycleSignature_append (seed : Nat × Nat) (results : List (Nat × Nat × Nat)) (i a b : Nat) :
    cycleSignature seed (results ++ [(i, a, b)]) =
      pairNumber (feedSymbol (feedSymbol (results.foldl (fun ab r => feedSymbol (feedSymbol ab r.2.1) r.2.2) seed) a) b) := by
  simp only [cycleSignature, List.foldl_append, List.foldl_cons, List.foldl_nil]

/-! ### Regions in ascending number -/

section Sorting

variable {r : Region} {rs : List Region}

theorem insertRegion_perm (r : Region) (rs : List Region) : (insertRegion r rs).Perm (r :: rs) := by
  induction rs with
  | nil => exact .refl _
  | cons x rs ih =>
    rw [insertRegion]
    split_ifs
    · exact .refl _
    · exact (ih.cons x).trans (.swap r x rs)

theorem sortRegions_perm (rs : List Region) : (sortRegions rs).Perm rs := by
  induction rs with
  | nil => exact .refl _
  | cons r rs ih => exact (insertRegion_perm r _).trans (ih.cons r)

theorem insertRegion_ascending (h : rs.Pairwise (fun x y => x.number ≤ y.number)) :
    (insertRegion r rs).Pairwise (fun x y => x.number ≤ y.number) := by
  induction rs with
  | nil => exact List.pairwise_singleton _ _
  | cons x rs ih =>
    obtain ⟨hx, hrs⟩ := List.pairwise_cons.mp h
    rw [insertRegion]
    split_ifs with hlt
    · refine List.pairwise_cons.mpr ⟨List.forall_mem_cons.mpr ⟨hlt.le, fun y hy => hlt.le.trans (hx y hy)⟩, h⟩
    · refine List.pairwise_cons.mpr ⟨fun y hy => ?_, ih hrs⟩
      rcases List.mem_cons.mp ((insertRegion_perm r rs).mem_iff.mp hy) with rfl | hy
      · exact Nat.le_of_not_lt hlt
      · exact hx y hy

theorem sortRegions_ascending (rs : List Region) : (sortRegions rs).Pairwise (fun x y => x.number ≤ y.number) := by
  induction rs with
  | nil => exact List.Pairwise.nil
  | cons r rs ih => exact insertRegion_ascending ih

/-- Regions of which no two have one number stand in strictly ascending number. -/
theorem sortRegions_strict (h : (rs.map (fun r => r.number)).Nodup) :
    (sortRegions rs).Pairwise (fun x y => x.number < y.number) := by
  have hne : (sortRegions rs).Pairwise (fun x y => x.number ≠ y.number) :=
    List.pairwise_map.mp (((sortRegions_perm rs).map Region.number).nodup_iff.mpr h)
  exact (sortRegions_ascending rs).imp₂ (fun _ _ hle hne => lt_of_le_of_ne hle hne) hne

end Sorting

/-! ### The steps of a pass (R56) -/

section Plan

variable {s : State} {r : Region} {st : SignStep}

theorem mem_regionSteps : st ∈ regionSteps r ↔
    st.region = r.number ∧ r.first ≤ st.page ∧ st.page ≤ r.last ∧ st.first = decide (st.page = r.first) ∧
      st.last = decide (st.page = r.last) := by
  simp only [regionSteps, List.mem_map, List.mem_range]
  constructor
  · rintro ⟨i, hi, rfl⟩
    refine ⟨rfl, by simp, by dsimp only; omega, ?_, rfl⟩
    simp
  · obtain ⟨region, page, first, last⟩ := st
    rintro ⟨hregion, hfirst, hlast, hmark, hmark'⟩
    dsimp only at hregion hfirst hlast hmark hmark'
    refine ⟨page - r.first, by omega, ?_⟩
    have hpage : r.first + (page - r.first) = page := by omega
    have hzero : page - r.first = 0 ↔ page = r.first := by omega
    simp only [hpage, hzero, hregion, hmark, hmark']

/-- The pages of a region ascend. -/
theorem regionSteps_ascending (r : Region) : (regionSteps r).Pairwise (fun x y => x.page < y.page) :=
  List.pairwise_map.mpr (List.pairwise_lt_range.imp fun h => Nat.add_lt_add_left h r.first)

theorem mem_signPlan : st ∈ s.signPlan ↔ ∃ r ∈ s.regions, r.signed = true ∧ st ∈ regionSteps r := by
  simp only [State.signPlan, List.mem_flatMap, (sortRegions_perm _).mem_iff, List.mem_filter, and_assoc]

/-- What holds within the steps of each region, and between the steps of two in their order, holds along the plan. -/
theorem signPlan_pairwise {P : Region → Region → Prop} {R : SignStep → SignStep → Prop}
    (hP : (sortRegions (s.regions.filter (fun r => r.signed))).Pairwise P) (hin : ∀ r, (regionSteps r).Pairwise R)
    (hout : ∀ r r', P r r' → ∀ x ∈ regionSteps r, ∀ y ∈ regionSteps r', R x y) : s.signPlan.Pairwise R :=
  List.pairwise_flatMap.mpr ⟨fun r _ => hin r, hP.imp (hout _ _)⟩

/-- Along the plan the region numbers never fall. -/
theorem signPlan_ascending (s : State) : s.signPlan.Pairwise (fun x y => x.region ≤ y.region) := by
  refine signPlan_pairwise (sortRegions_ascending _) (fun r => ?_) fun r r' h x hx y hy => ?_
  · refine List.pairwise_of_forall_mem_list fun x hx y hy => ?_
    rw [(mem_regionSteps.mp hx).1, (mem_regionSteps.mp hy).1]
  · rwa [(mem_regionSteps.mp hx).1, (mem_regionSteps.mp hy).1]

/-- Where no two regions have one number, no page is planned twice. -/
theorem signPlan_strict (h : (s.regions.map (fun r => r.number)).Nodup) :
    s.signPlan.Pairwise (fun x y => x.region < y.region ∨ x.region = y.region ∧ x.page < y.page) := by
  have hsigned : ((s.regions.filter (fun r => r.signed)).map (fun r => r.number)).Nodup :=
    h.sublist ((s.regions.filter_sublist).map _)
  refine signPlan_pairwise (sortRegions_strict hsigned) (fun r => ?_) fun r r' h x hx y hy => ?_
  · refine (regionSteps_ascending r).imp_of_mem fun {x y} hx hy hlt => .inr ⟨?_, hlt⟩
    rw [(mem_regionSteps.mp hx).1, (mem_regionSteps.mp hy).1]
  · left
    rwa [(mem_regionSteps.mp hx).1, (mem_regionSteps.mp hy).1]

end Plan

/-! ### What the grants of a region feed (R65) -/

section Feeding

variable {r : Region} {cells : Nat → List Word}

/-- A region's steps: the first, marked as such, and those behind it, on the pages that follow. -/
theorem regionSteps_cons (h : r.first ≤ r.last) :
    ∃ last rest, regionSteps r = { region := r.number, page := r.first, first := true, last := last } :: rest ∧
      (∀ st ∈ rest, st.first = false) ∧ rest.map (fun st => st.page) = List.range' (r.first + 1) (r.last - r.first) := by
  have hcount : r.last + 1 - r.first = (r.last - r.first) + 1 := by omega
  rw [regionSteps, hcount, List.range_succ_eq_map, List.map_cons, List.map_map]
  refine ⟨_, _, rfl, fun st hst => ?_, ?_⟩
  · obtain ⟨i, -, rfl⟩ := List.mem_map.mp hst
    rfl
  · rw [List.range'_eq_map_range, List.map_map]
    exact List.map_congr_left fun i _ => by simp only [Function.comp_apply]; omega

/-- Steps behind the first feed their cells and nothing else. -/
theorem foldl_pageFed {steps : List SignStep} (h : ∀ st ∈ steps, st.first = false) (ab : Nat × Nat) :
    steps.foldl (fun ab st => pageFed ab st (cells st.page)) ab =
      ((steps.map (fun st => st.page)).flatMap cells).foldl feedCell ab := by
  rw [List.foldl_flatMap, List.foldl_map]
  refine List.foldl_ext _ _ _ fun ab st hst => ?_
  simp [pageFed, h st hst]

/-- The region number, then every cell of the region in ascending address order. -/
theorem foldl_regionSteps (h : r.first ≤ r.last) (seed : Nat × Nat) :
    (regionSteps r).foldl (fun ab st => pageFed ab st (cells st.page)) seed =
      ((List.range' r.first (r.last + 1 - r.first)).flatMap cells).foldl feedCell (feedSymbol seed r.number) := by
  obtain ⟨last, rest, hsteps, hrest, hpages⟩ := regionSteps_cons h
  have hcount : r.last + 1 - r.first = (r.last - r.first) + 1 := by omega
  rw [hsteps, List.foldl_cons, foldl_pageFed hrest, hpages, hcount, List.range'_succ, List.flatMap_cons, List.foldl_append]
  rfl

end Feeding

/-- Settles O34: a pass runs through the sorted regions, and within each through its pages. -/
theorem signaturesFeedRegionsInOrder : Obligations.SignaturesFeedRegionsInOrder := by
  refine ⟨fun a b x => ⟨feedSymbol_eq a b x, feedSymbol_le (a, b) x⟩, fun _ _ => rfl, fun a b ha hb => ?_, fun s => ?_,
    fun r seed cells h => foldl_regionSteps h seed, cycleSignature_append⟩
  · have hpair := toNat_pairNumber ha hb
    exact ⟨hpair, by omega⟩
  · refine ⟨signPlan_ascending s, fun st => ?_, signPlan_strict⟩
    simp only [mem_signPlan, mem_regionSteps]

end Sys2Proof.Machine
end

section
/-! POWER_ON and POWER_LOSS: what the cut leaves of the array, and the power-on values of everything else (R93, R160, R166). -/

namespace Sys2Proof.Machine

section Power

variable {s : State} {cut : Cut}

/-- With nothing suspended a cut leaves what it leaves of the operation in progress. -/
theorem cutArray_of_op {ctl : Controller} {o : ArrayOp} (hop : ctl.op = some o) (hs : ctl.suspended = none) (x : RetArray) :
    cutArray ctl cut x = cutOp o cut x := by
  simp only [cutArray, hop, hs]

/-- A page program that had not ended leaves a check failure (R93). -/
theorem cutOp_programPage {i : SlotId} {p : Nat} {cells : List Word} (h : cut.whole = false) (x : RetArray) :
    cutOp (.programPage i p cells) cut x = x.putSlot i ((x.slot i).putPlace p .checkFailure) := by
  simp only [cutOp, h, Bool.false_and, Bool.false_eq_true, if_false]

/-- A completion mark reads whole only where its program had just ended, into an erased field (R93). -/
theorem cutOp_programCompletion (i : SlotId) (x : RetArray) :
    cutOp (.programCompletion i) cut x = x.putSlot i { x.slot i with
      completion := if cut.whole = true ∧ (x.slot i).completion = .erased then .whole () else .damaged } := by
  simp only [cutOp, Bool.and_eq_true, decide_eq_true_eq]

end Power

/-- Settles O22: the two commands set every field but those that power does not reach. -/
theorem powerOnAndPowerLossClearTheBlocks : Obligations.PowerOnAndPowerLossClearTheBlocks := by
  intro s cut
  refine ⟨fun hoff => ?_, fun hon => if_pos hon, fun hoff => if_pos hoff, fun hon => ?_⟩
  · refine (if_neg (not_not.mpr hoff)).trans (congrArg Host.Outcome.next ?_)
    split_ifs <;> rfl
  · refine ⟨fun hop hs => cutArray_idle hop hs cut _, fun i p cells hop hs hcut => ?_, fun i hop hs => ?_, if_neg hon⟩
    · exact (cutArray_of_op hop hs _).trans (cutOp_programPage hcut _)
    · exact (cutArray_of_op hop hs _).trans (cutOp_programCompletion i _)

end Sys2Proof.Machine
end

section
/-! What an event of the array's users ends in, and the blocks that it sets off. -/

namespace Sys2Proof.Machine

section Event

variable {s t u : State} {f : State → State}

/-- An event that settles into a still part and answers nothing: only ALERT follows. -/
theorem event_settles_alert (hready : s.ready) (hf : (f s).settle = u) (hu : u.still) (hends : u.EndsAs s) :
    s.event f = u.withAlert := by
  obtain ⟨-, ⟨hlines, hquiet⟩, hreads⟩ := hready
  rw [event_of_settle hf (settled_of_still hu) (hends.readsDone hreads), closeEvent_of_quiet (hends.quiet hquiet)]
  exact hends.drivePins_eq hlines

/-- And nothing where the fault store is as it was. -/
theorem event_settles_same (hready : s.ready) (hf : (f s).settle = u) (hu : u.still) (hends : u.EndsAs s)
    (ha : u.alertCond = s.alertCond) : s.event f = u := by
  obtain ⟨-, ⟨hlines, hquiet⟩, hreads⟩ := hready
  rw [event_of_settle hf (settled_of_still hu) (hends.readsDone hreads), closeEvent_of_quiet (hends.quiet hquiet)]
  exact hends.drivePins_same hlines ha

/-- No pre-erase is due. -/
theorem startPreErase_of_stands (h : s.eraseStands = true) : s.startPreErase = s := by
  refine if_neg fun ⟨hidle, hhold, hslot⟩ => ?_
  rcases hslot with hslot | hslot <;> simp [State.eraseStands, hidle, hhold, hslot] at h

/-- A part in which nothing but the restore engine begins. -/
theorem settleBlocks_of_restoresTake (hclose : s.closeStands = true) (htake : s.restoresTake = u) (hu : u.still) :
    s.settleBlocks = u := by
  have ⟨hcu, hru, _⟩ := hu
  have hstill := settleBlocks_of_still hu
  rw [State.settleBlocks, beginClosePass_of_stands hcu, restoresTake_of_stands hru] at hstill
  rw [State.settleBlocks, beginClosePass_of_stands hclose, htake, hstill]

/-- A part in which nothing but the checkpoint in flight goes on. -/
theorem settleBlocks_of_flight (hclose : s.closeStands = true) (hrest : s.rest.op ≠ .none ∨ s.rest.list = [])
    (hflight : s.sourceFault.passUnset.nextProgram = u) (hu : u.still) : s.settleBlocks = u := by
  obtain ⟨hcu, -, -, hdonor, hcheck, hrun, herase⟩ := hu
  rw [State.settleBlocks, beginClosePass_of_stands hclose, restoresTake_of_stands hrest, hflight, passTest_of_stands hdonor,
    sendFinal_of_stands hcu, beginCheck_of_stands hcheck, updateRun_of_runStands hrun, startPreErase_of_stands herase]

end Event

/-! ### The controller once its operation has ended (R93, R94) -/

section Controller

variable {s : State}

theorem takeRank_none {n : Nat} {w : List ArrayOp} (h : ∀ o ∈ w, o.rank ≠ n) : takeRank n w = none := by
  induction w with
  | nil => rfl
  | cons o w ih =>
    rw [takeRank, if_neg (h o List.mem_cons_self), ih fun x hx => h x (List.mem_cons_of_mem o hx)]

/-- With no read waiting a suspended erase resumes; with no erase suspended and nothing waiting the controller is free. -/
theorem opEnded_resumes (hfree : s.ctl.suspended = none → s.ctl.waiting = []) (hread : ∀ o ∈ s.ctl.waiting, 3 ≤ o.rank) :
    s.opEnded = s.setCtl { s.ctl with op := s.ctl.suspended, suspended := none } := by
  cases hs : s.ctl.suspended with
  | none =>
    rw [opEnded_of_alone (hfree hs) hs, ← hs]
  | some o =>
    have hnone : takeFirst [1, 2] s.ctl.waiting = none := by
      simp only [takeFirst, takeRank_none fun o ho => (show o.rank ≠ 1 from by have := hread o ho; omega),
        takeRank_none fun o ho => (show o.rank ≠ 2 from by have := hread o ho; omega)]
    simp only [State.opEnded, State.nextOp, State.setCtl_ctl, hnone, hs]
    rfl

/-- A user that asks for its next operation as its last one ends, with nothing else waiting. -/
theorem opEndedAsking_of_alone {o : ArrayOp} (hw : s.ctl.waiting = []) (hs : s.ctl.suspended = none)
    (hrank : 3 ≤ o.rank) (hlast : o.rank ≤ 5) (ho : o ≠ .eraseCommissioning) :
    s.opEndedAsking o = s.setCtl { s.ctl with op := some o } := by
  have hfirst : takeFirst [1, 2] [o] = none := by
    simp only [takeFirst, takeRank, if_neg (show o.rank ≠ 1 by omega), if_neg (show o.rank ≠ 2 by omega)]
  have hnext : takeFirst [3, 4, 5] [o] = some (o, []) := by
    obtain h | h | h : o.rank = 3 ∨ o.rank = 4 ∨ o.rank = 5 := by omega
    all_goals simp [takeFirst, takeRank, h]
  simp only [State.opEndedAsking, State.nextOp, State.setCtl_ctl, hw, hs, List.nil_append, hfirst, hnext, State.startOp, ho,
    if_false]
  rfl

end Controller

end Sys2Proof.Machine
end

section
/-! READ COMMISSIONING, and WRITE COMMISSIONING through its erase and its program (R163). -/

namespace Sys2Proof.Machine

section Commissioning

variable {s : State} {r : Request} {tag : Byte} {x : CommRecord}

/-- READ COMMISSIONING shows the unit's copy. -/
theorem execReadCommissioning_eq (hs : s.serves .readCommissioning r) :
    exec (.readCommissioning r) s = .next (s.replying .readCommissioning r.tag .ok
      (.commissioning s.comm.stored s.comm.locked s.comm.inUse.isSome)) := by
  refine congrArg Host.Outcome.next ?_
  exact plain_reply_same (u := s.working) (ups := []) hs rfl rfl rfl (by decide) rfl rfl rfl rfl

theorem execWriteCommissioning_refused {st : Status} (hstill : s.still) (hs : s.serves .writeCommissioning r)
    (hd : s.working.onWriteCommissioning r = s.working.refuse .writeCommissioning r.tag st) (hst : st ≠ .starting) :
    exec (.writeCommissioning r) s = .next (s.replying .writeCommissioning r.tag st .empty) :=
  congrArg Host.Outcome.next (event_refused (ups := []) hs hstill hd hst)

/-- An accepted WRITE COMMISSIONING waits for the erase it asks for. -/
theorem onWriteCommissioning_accepted (hlane : s.lane.state = .config) (hlock : s.comm.locked = false)
    (hargs : commissioningArgs r.body = some x) :
    s.working.onWriteCommissioning r = (s.waiting (.writeCommissioning r.tag x)).ask .eraseCommissioning := by
  refine (if_neg (not_not.mpr hlane)).trans ((if_neg fun h => Bool.false_ne_true (hlock.symm.trans h)).trans ?_)
  rw [hargs]
  rfl

theorem execWriteCommissioning_waits {u : State} (hs : s.serves .writeCommissioning r)
    (hlane : s.lane.state = .config) (hlock : s.comm.locked = false) (hargs : commissioningArgs r.body = some x)
    (hask : (s.waiting (.writeCommissioning r.tag x)).ask .eraseCommissioning = u.waiting (.writeCommissioning r.tag x))
    (hu : u.still) (hends : u.EndsAs s) (ha : u.alertCond = s.alertCond) :
    exec (.writeCommissioning r) s = .next (u.waiting (.writeCommissioning r.tag x)) := by
  have ⟨_, _, _, _, ⟨_, hquiet⟩, _⟩ := hs
  refine congrArg Host.Outcome.next ?_
  exact event_wait (ups := []) hs ((onWriteCommissioning_accepted hlane hlock hargs).trans hask) (hends.quiet hquiet) rfl rfl
    (still_setLink.mpr hu) hends.pins hends.permit hends.phase ha

/-- The erase begins on a free controller, and the stored record is BLANK from then on. -/
theorem ask_eraseCommissioning_of_free (h : s.ctl.op = none) :
    s.ask .eraseCommissioning =
      (s.setCtl { s.ctl with op := some .eraseCommissioning }).setComm { s.comm with stored := .erased } := by
  simp only [State.ask, h]
  rfl

/-- Behind any operation it waits. -/
theorem ask_eraseCommissioning_of_busy {o : ArrayOp} (h : s.ctl.op = some o) :
    s.ask .eraseCommissioning = s.setCtl { s.ctl with waiting := s.ctl.waiting ++ [.eraseCommissioning] } := by
  simp only [State.ask, h]
  rfl

/-- The state once the job of WRITE COMMISSIONING has ended at a controller with nothing else to do. -/
def State.writeOver (s : State) (a : RetArray) (stored : RecordPlace) : State :=
  { s with
    array := a, comm := { s.comm with stored := stored }
    ctl := { s.ctl with op := none }, link := { s.link with job := none } }

/-- The end of the job, with its reply. -/
theorem event_writeOver {f : State → State} {a : RetArray} {stored : RecordPlace} {st : Status} {b : ReplyBody}
    (hstill : s.still) (hready : s.ready) (hlive : s.link.live = true) (hst : st ≠ .starting)
    (hf : f s = (s.writeOver a stored).answer .writeCommissioning tag st b) :
    s.event f = (s.writeOver a stored).replying .writeCommissioning tag st b := by
  obtain ⟨-, ⟨hlines, hquiet⟩, hsecond, -⟩ := hready
  exact (event_answered_same hf hstill ⟨hsecond, rfl⟩ hst hquiet hlines).trans (if_pos hlive)

/-- The sector's erase without a fault: the record's program follows at once. -/
theorem eraseDone_fine (hjob : s.link.job = some (.writeCommissioning tag x)) (hs : s.ctl.suspended = none)
    (hw : s.ctl.waiting = []) :
    s.eraseDone none = { s with
      array := { s.array with record := .erased, lock := .erased }
      ctl := { s.ctl with op := some (.programRecord x) } } := by
  unfold State.eraseDone
  dsimp only [Option.getD_none]
  rw [if_pos ⟨rfl, rfl, rfl⟩]
  simp only [State.setArray_link, hjob]
  exact opEndedAsking_of_alone (s := s.setArray { s.array with record := .erased, lock := .erased }) hw hs (Nat.le_refl 3)
    (by decide : 3 ≤ 5) (by simp)

/-- The end of the job with an array fault. -/
theorem endWriteJob_fault (hjob : s.link.job = some (.writeCommissioning tag x)) :
    s.endWriteJob true =
      (s.setJob none).answer .writeCommissioning tag .invalidConfig (.failingRule .array none none) := by
  simp only [State.endWriteJob, hjob]
  rfl

/-- And without one. -/
theorem endWriteJob_ok (hjob : s.link.job = some (.writeCommissioning tag x)) :
    s.endWriteJob false = (s.setJob none).answer .writeCommissioning tag .ok .empty := by
  simp only [State.endWriteJob, hjob]
  rfl

theorem faultedLock_eq (l : Field Unit) : faultedLock l = if l = .whole () then .damaged else l := by
  cases l <;> rfl

/-- The sector's erase with a fault. -/
theorem eraseDone_faulted {left : CommLeft} (hjob : s.link.job = some (.writeCommissioning tag x))
    (hs : s.ctl.suspended = none) (hw : s.ctl.waiting = [])
    (hleft : left.record ≠ .erased ∨ left.lock ≠ .erased ∨ left.others = true) :
    s.eraseDone (some left) =
      (s.writeOver { s.array with
        record := left.record, lock := if left.lock = .whole () then .damaged else left.lock } .checkFailure).answer
        .writeCommissioning tag .invalidConfig (.failingRule .array none none) := by
  have hfault : ¬ (left.record = .erased ∧ left.lock = .erased ∧ left.others = false) := by
    rintro ⟨h1, h2, h3⟩
    simp [h1, h2, h3] at hleft
  unfold State.eraseDone
  dsimp only [Option.getD_some]
  rw [if_neg hfault, faultedLock_eq, opEnded_of_alone (by exact hw) (by exact hs)]
  exact endWriteJob_fault (by exact hjob)

/-- The record's program, with what the area reads as afterwards and whether that is the record. -/
theorem programDone_eq {left : Option RecordPlace} {now : RecordPlace} {good : Bool}
    (hjob : s.link.job = some (.writeCommissioning tag x)) (hs : s.ctl.suspended = none) (hw : s.ctl.waiting = [])
    (hnow : usedRecord (left.getD (if s.array.record = .erased then .record x (Config.recordCheck x) else .checkFailure)) = now)
    (hgood : (decide (s.array.record = .erased) && decide (now = .record x (Config.recordCheck x))) = good) :
    s.programDone x left =
      (s.writeOver { s.array with record := now }
        (if good then .record x (Config.recordCheck x) else .checkFailure)).answer .writeCommissioning tag
        (if good then .ok else .invalidConfig) (if good then .empty else .failingRule .array none none) := by
  unfold State.programDone
  dsimp only
  rw [hnow, hgood, opEnded_of_alone (by exact hw) (by exact hs)]
  cases good
  · exact endWriteJob_fault (by exact hjob)
  · exact endWriteJob_ok (by exact hjob)

end Commissioning

/-- Settles O57: the request's checks, then the two steps of the write, each with and without an array fault. -/
theorem commissioningIsWrittenInTwoSteps : Obligations.CommissioningIsWrittenInTwoSteps := by
  intro s r tag x arrayRule
  refine ⟨execReadCommissioning_eq, fun hstill hs => ⟨fun hlane => ?_, fun hlane hlock => ?_, fun hlane hlock hargs => ?_,
    fun hlane hlock hargs hop => ?_, fun o hlane hlock hargs hop => ?_⟩, fun hstill hready hjob hlive hsusp hwait => ?_⟩
  · exact execWriteCommissioning_refused hstill hs (if_pos hlane) (by decide)
  · exact execWriteCommissioning_refused hstill hs ((if_neg (not_not.mpr hlane)).trans (if_pos hlock)) (by decide)
  · refine execWriteCommissioning_refused hstill hs ?_ (by decide)
    refine (if_neg (not_not.mpr hlane)).trans ((if_neg fun h => Bool.false_ne_true (hlock.symm.trans h)).trans ?_)
    rw [hargs]
  · exact execWriteCommissioning_waits hs hlane hlock hargs (ask_eraseCommissioning_of_free (by exact hop)) hstill
      ⟨rfl, rfl, rfl, rfl, rfl⟩ rfl
  · exact execWriteCommissioning_waits hs hlane hlock hargs (ask_eraseCommissioning_of_busy (by exact hop)) hstill
      ⟨rfl, rfl, rfl, rfl, rfl⟩ rfl
  intro done written
  have hexec_erase : ∀ left, s.ctl.op = some .eraseCommissioning →
      exec (.commissioningEraseDone left) s = .next (s.event (fun t => t.eraseDone left)) := fun left hop => by
    change execCommissioningEraseDone left s = _
    simp only [execCommissioningEraseDone, hop]
  have hexec_program : ∀ left, s.ctl.op = some (.programRecord x) →
      exec (.commissioningProgramDone left) s = .next (s.event (fun t => t.programDone x left)) := fun left hop => by
    change execCommissioningProgramDone left s = _
    simp only [execCommissioningProgramDone, hop]
  refine ⟨fun hop => ?_, fun left hop hleft => ?_, fun hop hblank => ?_, fun left hop hleft => ?_⟩
  · rw [hexec_erase none hop]
    refine congrArg Host.Outcome.next (event_settles_same hready ?_ hstill ⟨rfl, rfl, rfl, rfl, rfl⟩ rfl)
    rw [eraseDone_fine hjob hsusp hwait]
    exact settle_of_still hstill
  · rw [hexec_erase _ hop]
    exact congrArg Host.Outcome.next (event_writeOver hstill hready hlive (by decide)
      (eraseDone_faulted hjob hsusp hwait hleft))
  · rw [hexec_program _ hop]
    refine congrArg Host.Outcome.next (event_writeOver hstill hready hlive (by decide)
      (programDone_eq (now := written) (good := true) hjob hsusp hwait ?_ ?_))
    · rw [hblank]; rfl
    · simp [hblank, written]
  · rw [hexec_program _ hop]
    refine congrArg Host.Outcome.next (event_writeOver hstill hready hlive (by decide)
      (programDone_eq (now := if left = .erased then .checkFailure else left) (good := false) hjob hsusp hwait ?_ ?_))
    · cases left <;> rfl
    · have hne : (if left = .erased then RecordPlace.checkFailure else left) ≠ written := by
        split_ifs
        · exact RecordPlace.noConfusion
        · exact hleft
      exact Bool.and_eq_false_imp.mpr fun _ => decide_eq_false hne

end Sys2Proof.Machine
end

section
/-! The abandon mark and the sectors of the pre-erase (R98, R99, R106). -/

namespace Sys2Proof.Machine

/-! ### What a slot's places read as -/

section Places

/-- A place that is written reads as written, and every other as it was. -/
theorem place_putPlace {x : SlotStore} {p : Nat} {v : Place} (h : tabWf Place.erased x.places = true ∨ v ≠ .erased) (q : Nat) :
    (x.putPlace p v).place q = if q = p then v else x.place q := by
  split_ifs with hq
  · subst hq
    exact tabGet_put_same _ h
  · exact tabGet_put_other _ _ _ hq

/-- The places that a sector's contents reach. -/
theorem place_putSector {x : SlotStore} (h : tabWf Place.erased x.places = true) (p n : Nat) (vs : List Place) (q : Nat) :
    (x.putSector p n vs).place q = if p ≤ q ∧ q < p + n then vs.getD (q - p) .erased else x.place q := by
  induction n generalizing x p vs with
  | zero => rw [SlotStore.putSector, if_neg (by omega)]
  | succ n ih =>
    have hstep : ∃ v us, x.putSector p (n + 1) vs = (x.putPlace p v).putSector (p + 1) n us ∧
        vs.getD 0 .erased = v ∧ ∀ i, vs.getD (i + 1) .erased = us.getD i .erased := by
      cases vs with
      | nil => exact ⟨.erased, [], rfl, rfl, fun _ => rfl⟩
      | cons v vs => exact ⟨v, vs, rfl, rfl, fun _ => rfl⟩
    obtain ⟨v, us, hput, hfirst, hrest⟩ := hstep
    rw [hput, ih (x := x.putPlace p v) (tabWf_put _ _ h), place_putPlace (.inl h)]
    by_cases hq : q = p
    · rw [if_neg (by omega), if_pos hq, if_pos (by omega), hq, Nat.sub_self, hfirst]
    · rw [if_neg hq]
      by_cases hin : p + 1 ≤ q ∧ q < p + 1 + n
      · rw [if_pos hin, if_pos (by omega), ← hrest, show q - (p + 1) + 1 = q - p by omega]
      · rw [if_neg hin, if_neg (by omega)]

/-- A sector's contents leave the header fields alone. -/
theorem putSector_header (x : SlotStore) (p n : Nat) (vs : List Place) :
    (x.putSector p n vs).begins = x.begins ∧ (x.putSector p n vs).completion = x.completion ∧
      (x.putSector p n vs).abandon = x.abandon := by
  induction n generalizing x p vs with
  | zero => exact ⟨rfl, rfl, rfl⟩
  | succ n ih => cases vs <;> exact ih ..

/-- The 16 places of a sector. -/
theorem mem_sector_iff (n q : Nat) : n * 16 ≤ q ∧ q < n * 16 + 16 ↔ q / 16 = n := by omega

@[simp] theorem slot_putSlot_same (a : RetArray) (i : SlotId) (x : SlotStore) : (a.putSlot i x).slot i = x := by
  cases i <;> rfl

/-- The array with one slot replaced: the other slot and the commissioning sector are as they were. -/
theorem putSlot_frame (a : RetArray) (i : SlotId) (x : SlotStore) :
    (a.putSlot i x).slot (otherSlot i) = a.slot (otherSlot i) ∧ (a.putSlot i x).record = a.record ∧
      (a.putSlot i x).lock = a.lock := by
  cases i <;> exact ⟨rfl, rfl, rfl⟩

end Places

/-! ### The ends of the engine's erases -/

section Sectors

variable {s : State} {slot : SlotId} {n : Nat} {left : Option SectorLeft}

/-- The freed controller with its array changed. -/
theorem setArray_opEnded (hw : s.ctl.waiting = []) (hs : s.ctl.suspended = none) (a : RetArray) :
    (s.setArray a).opEnded = { s with array := a, ctl := { s.ctl with op := none } } :=
  opEnded_of_alone (s := s.setArray a) hw hs

/-- After a data sector that erased the next one is asked for. -/
theorem sectorDone_goesOn (herasing : s.ckpt.state = .erasing) (hw : s.ctl.waiting = []) (hs : s.ctl.suspended = none)
    (hn : n < 16) (hfine : (eraseSlotSector (s.array.slot slot) n left).2 = false) :
    s.sectorDone slot n left = { s with
      array := s.array.putSlot slot (eraseSlotSector (s.array.slot slot) n left).1
      ckpt := { s.ckpt with erased := s.ckpt.erased + 1 }
      ctl := { s.ctl with op := some (.eraseSector slot (n + 1)) } } := by
  unfold State.sectorDone
  dsimp only
  rw [setArray_opEnded hw hs, hfine]
  refine (if_neg (not_not.mpr herasing)).trans ((if_neg Bool.false_ne_true).trans ((if_pos hn).trans ?_))
  exact ask_of_free rfl (by simp)

/-- After the header sector the slot is ERASED and the engine IDLE. -/
theorem sectorDone_ends (herasing : s.ckpt.state = .erasing) (hw : s.ctl.waiting = []) (hs : s.ctl.suspended = none)
    (hfine : (eraseSlotSector (s.array.slot slot) 16 left).2 = false) :
    s.sectorDone slot 16 left = { s with
      array := s.array.putSlot slot (eraseSlotSector (s.array.slot slot) 16 left).1
      ckpt := { (s.ckpt.putSlot slot { SlotEntry.unknown with state := .erased }) with state := .idle, erased := 0 }
      ctl := { s.ctl with op := none } } := by
  unfold State.sectorDone
  dsimp only
  rw [setArray_opEnded hw hs, hfine]
  exact (if_neg (not_not.mpr herasing)).trans ((if_neg Bool.false_ne_true).trans (if_neg (by decide)))

/-- The engine IDLE with the hold set, and its slot INVALID (R99). -/
def State.eraseHeld (s : State) (slot : SlotId) (a : RetArray) : State :=
  { s with
    array := a
    ckpt := { (s.ckpt.putSlot slot SlotEntry.unknown) with state := .idle, erased := 0, hold := true }
    ctl := { s.ctl with op := none } }

/-- A sector that does not read as erased stops the pre-erase. -/
theorem sectorDone_fails (herasing : s.ckpt.state = .erasing) (hw : s.ctl.waiting = []) (hs : s.ctl.suspended = none)
    (hfault : (eraseSlotSector (s.array.slot slot) n left).2 = true) (hroom : s.roomFor 32) :
    s.sectorDone slot n left =
      ((s.eraseHeld slot (s.array.putSlot slot (eraseSlotSector (s.array.slot slot) n left).1)).raised
        .checkpointFailed 32).framed (.transfer .checkpointFailed .checkpoint none (some slot) 0 .eraseFault) := by
  obtain ⟨hprim, hlow⟩ := hroom
  unfold State.sectorDone
  dsimp only
  rw [setArray_opEnded hw hs, hfault]
  refine (if_neg (not_not.mpr herasing)).trans ((if_pos rfl).trans ?_)
  have hraise := raise_low (k := .checkpointFailed) (w := 32)
    (s := s.eraseHeld slot (s.array.putSlot slot (eraseSlotSector (s.array.slot slot) n left).1)) hlow
  have hframe := placeFrame_empty (s := (s.eraseHeld slot (s.array.putSlot slot
    (eraseSlotSector (s.array.slot slot) n left).1)).raised .checkpointFailed 32)
    (.transfer .checkpointFailed .checkpoint none (some slot) 0 .eraseFault) hprim
  rw [← hframe, ← hraise]
  rfl

theorem complete_of_active {c : Checkpoint} {i : SlotId} (h : c.active = some i) : (c.slot i).state = .complete := by
  unfold Checkpoint.active at h
  split at h
  · next h0 h1 =>
    split_ifs at h <;> cases h
    · exact h1
    · exact h0
  · next h0 _ =>
    cases h
    exact h0
  · next h1 _ =>
    cases h
    exact h1
  · cases h

theorem otherSlot_of_ne {i j : SlotId} (h : i ≠ j) : otherSlot i = j := by
  cases i <;> cases j
  · exact absurd rfl h
  · rfl
  · rfl
  · exact absurd rfl h

/-- With a slot ERASED the inactive slot is ERASED (R95). -/
theorem inactive_erased {c : Checkpoint} (h : (c.slot slot).state = .erased) : (c.slot c.inactive).state = .erased := by
  unfold Checkpoint.inactive
  split
  · next i hi =>
    have hne : i ≠ slot := fun hsame => by
      rw [← hsame, complete_of_active hi] at h
      exact SlotState.noConfusion h
    rw [otherSlot_of_ne hne, h]
  · split_ifs with h0 h1
    · exact h0
    · exact h1
    · cases slot
      · exact absurd h h0
      · exact absurd h h1

/-- A part whose engine has come to rest stands still if nothing is left to erase. -/
theorem still_of_idle {a : RetArray} {k : Checkpoint} {c : Controller} (h : s.still) (hidle : k.state = .idle)
    (herase : k.hold = true ∨ (k.slot k.inactive).state = .erased) :
    ({ s with array := a, ckpt := k, ctl := c } : State).still := by
  obtain ⟨hclose, hrest, -, hdonor, hcheck, hrun, -⟩ := h
  refine ⟨hclose, hrest, ?_, hdonor, hcheck, hrun, ?_⟩
  · simp only [State.flightStands, hidle]
  · rcases herase with hhold | hslot
    · simp [State.eraseStands, hhold]
    · simp [State.eraseStands, hslot]

theorem exec_preEraseSectorErased (hop : s.ctl.op = some (.eraseSector slot n)) :
    exec (.preEraseSectorErased left) s = .next (s.event (fun t => t.sectorDone slot n left)) := by
  change execPreEraseSectorErased left s = _
  simp only [execPreEraseSectorErased, hop]

/-- What a failed erase leaves, as a command. -/
theorem exec_sector_fails (hstill : s.still) (hready : s.ready) (herasing : s.ckpt.state = .erasing)
    (hw : s.ctl.waiting = []) (hs : s.ctl.suspended = none) (hop : s.ctl.op = some (.eraseSector slot n))
    (hfault : (eraseSlotSector (s.array.slot slot) n left).2 = true) (hroom : s.roomFor 32) :
    exec (.preEraseSectorErased left) s = .next
      (((s.eraseHeld slot (s.array.putSlot slot (eraseSlotSector (s.array.slot slot) n left).1)).raised
        .checkpointFailed 32).framed (.transfer .checkpointFailed .checkpoint none (some slot) 0 .eraseFault)).withAlert := by
  have hheld : (s.eraseHeld slot (s.array.putSlot slot (eraseSlotSector (s.array.slot slot) n left).1)).still :=
    still_of_idle hstill rfl (.inl rfl)
  rw [exec_preEraseSectorErased hop]
  refine congrArg Host.Outcome.next (event_settles_alert hready ?_ (still_framed (still_raised hheld))
    ⟨rfl, rfl, rfl, rfl, rfl⟩)
  rw [sectorDone_fails herasing hw hs hfault hroom]
  exact settle_of_still hheld

/-- The abandon mark's program ends, with or without a fault, and the pre-erase begins. -/
theorem exec_abandonMark {left : Option (Field Unit)} (hstill : s.still) (hready : s.ready)
    (herasing : s.ckpt.state = .erasing) (hw : s.ctl.waiting = []) (hs : s.ctl.suspended = none)
    (hop : s.ctl.op = some (.programAbandon slot)) :
    exec (.abandonMarkProgrammed left) s = .next { s with
      array := s.array.putSlot slot { s.array.slot slot with
        abandon := (programField (s.array.slot slot).abandon () left).1 }
      ctl := { s.ctl with op := some (.eraseSector slot 0) } } := by
  have hexec : exec (.abandonMarkProgrammed left) s = .next (s.event (fun t => t.abandonDone slot left)) := by
    change execAbandonMarkProgrammed left s = _
    simp only [execAbandonMarkProgrammed, hop]
  rw [hexec]
  refine congrArg Host.Outcome.next (event_settles_same hready ?_ hstill ⟨rfl, rfl, rfl, rfl, rfl⟩ rfl)
  have hdone : s.abandonDone slot left = { s with
      array := s.array.putSlot slot { s.array.slot slot with
        abandon := (programField (s.array.slot slot).abandon () left).1 }
      ctl := { s.ctl with op := some (.eraseSector slot 0) } } := by
    unfold State.abandonDone
    dsimp only
    rw [setArray_opEnded hw hs]
    exact (if_pos herasing).trans (ask_of_free rfl (by simp))
  rw [hdone]
  exact settle_of_still hstill

end Sectors

/-! ### What the erase of a sector leaves of the array -/

section Erases

variable {a : RetArray} {slot : SlotId} {n : Nat}

/-- The array `b` is `a` with the places of data sector `n` of a slot holding `places`, and nothing else changed. -/
abbrev RetArray.sectorHolds (b a : RetArray) (slot : SlotId) (n : Nat) (places : List Place) : Prop :=
  (∀ q, (b.slot slot).place q = if q / 16 = n then places.getD (q % 16) .erased else (a.slot slot).place q) ∧
    b.slot (otherSlot slot) = a.slot (otherSlot slot) ∧ b.record = a.record ∧ b.lock = a.lock ∧
    (b.slot slot).begins = (a.slot slot).begins ∧ (b.slot slot).completion = (a.slot slot).completion ∧
    (b.slot slot).abandon = (a.slot slot).abandon

theorem putSector_sectorHolds (hwf : tabWf Place.erased (a.slot slot).places = true) (places : List Place) :
    (a.putSlot slot ((a.slot slot).putSector (n * 16) 16 places)).sectorHolds a slot n places := by
  obtain ⟨hother, hrecord, hlock⟩ := putSlot_frame a slot ((a.slot slot).putSector (n * 16) 16 places)
  refine ⟨fun q => ?_, hother, hrecord, hlock, ?_⟩
  · rw [slot_putSlot_same, place_putSector hwf]
    simp only [mem_sector_iff]
    split_ifs with hq
    · rw [show q - n * 16 = q % 16 by omega]
    · rfl
  · rw [slot_putSlot_same]
    exact putSector_header ..

theorem eraseSlotSector_data (hn : n < 16) (x : SlotStore) : eraseSlotSector x n none = (x.putSector (n * 16) 16 [], false) :=
  if_pos hn

/-- A data sector with a place that does not read as erased. -/
theorem eraseSlotSector_faulted (hn : n < 16) (x : SlotStore) {places : List Place} (hlen : places.length = 16)
    (hbad : ∃ v ∈ places, v ≠ .erased) :
    eraseSlotSector x n (some (.data places)) = (x.putSector (n * 16) 16 places, true) := by
  have hany : (places.take 16).any (fun p => p != .erased) = true := by
    rw [← hlen, List.take_length, List.any_eq_true]
    obtain ⟨v, hv, hne⟩ := hbad
    exact ⟨v, hv, bne_iff_ne.mpr hne⟩
  rw [← hany]
  exact if_pos hn

/-- A header sector of which some part does not read as erased. -/
theorem eraseSlotSector_header (x : SlotStore) {b : Field BeginFields} {c d : Field Unit} {others : Bool}
    (hbad : b ≠ .erased ∨ c ≠ .erased ∨ d ≠ .erased ∨ others = true) :
    eraseSlotSector x 16 (some (.header b c d others)) = ({ x with begins := b, completion := c, abandon := d }, true) := by
  have hany : (b != .erased || c != .erased || d != .erased || others) = true := by simpa [or_assoc] using hbad
  rw [← hany]
  rfl

end Erases

/-- Settles O45: each end of an erase leaves a part that stands still, the engine going on or at rest. -/
theorem preEraseErasesSectorBySector : Obligations.PreEraseErasesSectorBySector := by
  intro s slot hstill hready herasing hw hs hwf
  refine ⟨fun left hop => ?_, fun n hn hop => ?_, fun hop => ?_, fun hprim hlow => ?_⟩
  · refine ⟨_, exec_abandonMark hstill hready herasing hw hs hop, ?_⟩
    rintro rfl hblank
    rw [hblank]
    rfl
  · obtain ⟨hplaces, hother, hrecord, hlock, hbegins, hcompletion, habandon⟩ := putSector_sectorHolds (n := n) hwf []
    refine ⟨_, fun q => ?_, hother, hrecord, hlock, hbegins, hcompletion, habandon, ?_⟩
    · exact (hplaces q).trans (by simp)
    · rw [exec_preEraseSectorErased hop]
      refine congrArg Host.Outcome.next (event_settles_same hready ?_ hstill ⟨rfl, rfl, rfl, rfl, rfl⟩ rfl)
      rw [sectorDone_goesOn herasing hw hs hn (by rw [eraseSlotSector_data hn]), eraseSlotSector_data hn]
      exact settle_of_still hstill
  · have hrest : ({ s with
        array := s.array.putSlot slot { s.array.slot slot with begins := .erased, completion := .erased, abandon := .erased }
        ckpt := { (s.ckpt.putSlot slot { SlotEntry.unknown with state := .erased }) with state := .idle, erased := 0 }
        ctl := { s.ctl with op := none } } : State).still :=
      still_of_idle hstill rfl (.inr (inactive_erased (slot := slot) (by cases slot <;> rfl)))
    rw [exec_preEraseSectorErased hop]
    refine congrArg Host.Outcome.next (event_settles_same hready ?_ hrest ⟨rfl, rfl, rfl, rfl, rfl⟩ rfl)
    rw [sectorDone_ends herasing hw hs rfl]
    exact settle_of_still hrest
  · intro failed
    refine ⟨fun n places hn hop hlen hbad => ?_, fun b c d others hop hbad => ?_⟩
    · obtain ⟨hplaces, hother, hrecord, hlock, hbegins, hcompletion, habandon⟩ := putSector_sectorHolds (n := n) hwf places
      have hfault := eraseSlotSector_faulted hn (s.array.slot slot) hlen hbad
      have hexec := exec_sector_fails (left := some (.data places)) hstill hready herasing hw hs hop (by rw [hfault])
        ⟨hprim, hlow⟩
      rw [hfault] at hexec
      exact ⟨_, hplaces, hother, hrecord, hlock, hbegins, hcompletion, habandon, hexec⟩
    · have hfault := eraseSlotSector_header (s.array.slot slot) hbad
      have hexec := exec_sector_fails (left := some (.header b c d others)) hstill hready herasing hw hs hop (by rw [hfault])
        ⟨hprim, hlow⟩
      rw [hfault] at hexec
      exact hexec

end Sys2Proof.Machine
end

section
/-! The programs of a checkpoint in flight: each asks for the next one, or fails the checkpoint (R104, R105, R107). -/

namespace Sys2Proof.Machine

/-! ### What a checkpoint in flight does within an event -/

section Flight

variable {s u : State}

/-- No uncaptured page is one that no restore will reach. -/
theorem sourceFault_of_none (h : s.uncapturedPages.any s.unrestorable = false) : s.sourceFault = s := by
  have hnone : s.uncapturedPages.find? s.unrestorable = none := by
    rw [List.find?_eq_none]
    exact fun p hp hu => Bool.false_ne_true (h.symm.trans (List.any_eq_true.mpr ⟨p, hp, hu⟩))
  unfold State.sourceFault
  rw [hnone]
  exact ite_self s

/-- Not every uncaptured page is UNSET, or there is none. -/
theorem passUnset_of_some (h : s.uncapturedPages = [] ∨ ∃ p ∈ s.uncapturedPages, (s.page p).state ≠ .unset) :
    s.passUnset = s := by
  refine if_neg fun ⟨_, hne, hall⟩ => ?_
  rcases h with h | ⟨p, hp, hset⟩
  · exact hne h
  · exact hset (of_decide_eq_true (List.all_eq_true.mp hall p hp))

/-- What a checkpoint that stands says of its uncaptured pages while it is CAPTURING. -/
theorem flightStands_capturing (hc : s.ckpt.state = .capturing) (h : s.flightStands = true) :
    s.uncapturedPages.any s.unrestorable = false ∧
      (s.uncapturedPages = [] ∨ ∃ p ∈ s.uncapturedPages, (s.page p).state ≠ .unset) := by
  simp only [State.flightStands, hc, Bool.and_eq_true, Bool.or_eq_true, Bool.not_eq_true', beq_iff_eq, List.any_eq_true,
    decide_eq_true_eq] at h
  obtain ⟨⟨hsource, hpass⟩, -⟩ := h
  exact ⟨hsource, hpass⟩

/-- The engine asks for the program of its oldest buffered page. -/
theorem nextProgram_page {e : BufEntry} {rest : List BufEntry} (hc : s.ckpt.state = .capturing) (hb : s.ckpt.begun = true)
    (ha : s.ckpt.asked = false) (hop : s.ctl.op = none) (hbuf : s.ckpt.buffer = e :: rest) :
    s.nextProgram = { s with
      ckpt := { s.ckpt with asked := true }
      ctl := { s.ctl with op := some (.programPage s.ckpt.target e.page e.cells) } } := by
  refine (if_pos ⟨hc, hb, by simp [ha]⟩).trans ?_
  rw [hbuf]
  exact ask_of_free hop (by simp)

/-- With everything captured and programmed it asks for that of the completion mark. -/
theorem nextProgram_completion (hc : s.ckpt.state = .capturing) (hb : s.ckpt.begun = true) (ha : s.ckpt.asked = false)
    (hop : s.ctl.op = none) (hbuf : s.ckpt.buffer = []) (hall : s.uncapturedPages = []) :
    s.nextProgram = { s with
      ckpt := { s.ckpt with state := .finishing, asked := true }
      ctl := { s.ctl with op := some (.programCompletion s.ckpt.target) } } := by
  refine (if_pos ⟨hc, hb, by simp [ha]⟩).trans ?_
  rw [hbuf]
  exact (if_pos hall).trans (ask_of_free hop (by simp))

/-- A checkpoint that fails while it is CAPTURING, its frame yet to be placed (R107). -/
theorem failCheckpoint_eq (hc : s.ckpt.state = .capturing) (hlow : s.pressure.p + 32 < 512) (page : Option Nat) (why : Reason) :
    s.failCheckpoint page why = (s.captureOver.raised .checkpointFailed 32).placeFrame
      (.transfer .checkpointFailed .checkpoint page (some s.ckpt.target) 0 why) := by
  have habandon : s.abandonCheckpoint = s.captureOver := (if_pos hc).symm.trans (captureOver_eq s)
  have hraise := raise_low (s := s.captureOver) (k := .checkpointFailed) (w := 32) hlow
  unfold State.failCheckpoint
  dsimp only
  rw [habandon, ← hraise]
  rfl

/-- With every page captured no page's marks change. -/
theorem captureOver_of_captured (hc : s.ckpt.state = .capturing) (hall : s.uncapturedPages = []) :
    s.captureOver = { s with
      ckpt := s.ckpt.cancelled, journal := s.journal.ended, ctl := s.ctl.cancelled s.ckpt.target } := by
  have hpages : s.captureOver.pages = s.pages := by
    refine (if_pos hc).trans ?_
    rw [hall]
    rfl
  rw [captureOver_of_capturing hc, hpages]

end Flight

/-! ### The ends of the engine's programs -/

section Programs

variable {s : State} {slot : SlotId}

/-- A program of a capture has ended without a fault, the array being `a` then, and the engine in `k`. -/
def State.programmed (s : State) (a : RetArray) (k : Checkpoint) : State :=
  { s with array := a, ckpt := k, ctl := { s.ctl with op := none } }

/-- The event of a program that ends well: the engine's next program follows in it. -/
theorem event_programmed {f : State → State} {a : RetArray} {k l : Checkpoint} {c : Controller} (hstill : s.still)
    (hready : s.ready) (hc : s.ckpt.state = .capturing) (hf : f s = s.programmed a k)
    (hnext : (s.programmed a k).nextProgram = { s with array := a, ckpt := l, ctl := c })
    (hu : ({ s with array := a, ckpt := l, ctl := c } : State).still) :
    s.event f = { s with array := a, ckpt := l, ctl := c } := by
  obtain ⟨hrunning, -⟩ := id hready
  obtain ⟨hclose, hrest, hflight, -⟩ := hstill
  obtain ⟨hsource, hpass⟩ := flightStands_capturing hc hflight
  have hcapture : (s.programmed a k).sourceFault.passUnset.nextProgram = { s with array := a, ckpt := l, ctl := c } := by
    rw [sourceFault_of_none (s := s.programmed a k) hsource, passUnset_of_some (s := s.programmed a k) hpass, hnext]
  refine event_settles_same hready ?_ hu ⟨rfl, rfl, rfl, rfl, rfl⟩ rfl
  rw [hf]
  exact (if_pos hrunning).trans (settleBlocks_of_flight hclose hrest hcapture hu)

/-- A part whose engine waits for a program of its capture stands still. -/
theorem still_of_asked {a : RetArray} {k : Checkpoint} {c : Controller} (h : s.still) (hc : s.ckpt.state = .capturing)
    (hk : k.state = .capturing) (hasked : k.asked = true) : ({ s with array := a, ckpt := k, ctl := c } : State).still := by
  obtain ⟨hclose, hrest, hflight, hdonor, hcheck, hrun, -⟩ := h
  refine ⟨hclose, hrest, ?_, hdonor, hcheck, hrun, ?_⟩
  · simp only [State.flightStands, hc, Bool.and_eq_true] at hflight
    obtain ⟨hpages, -⟩ := hflight
    simp only [State.flightStands, hk, hasked, Bool.or_true, Bool.true_or, Bool.and_true]
    exact Bool.and_eq_true_iff.mpr hpages
  · simp only [State.eraseStands, hk]
    rfl

/-- So does one whose engine waits for its completion mark. -/
theorem still_of_finishing {a : RetArray} {k : Checkpoint} {c : Controller} (h : s.still) (hk : k.state = .finishing)
    (hall : s.uncapturedPages = []) : ({ s with array := a, ckpt := k, ctl := c } : State).still := by
  obtain ⟨hclose, hrest, -, hdonor, hcheck, hrun, -⟩ := h
  have hnone : ({ s with array := a, ckpt := k, ctl := c } : State).uncapturedPages = [] := hall
  refine ⟨hclose, hrest, ?_, hdonor, hcheck, hrun, ?_⟩
  · simp only [State.flightStands, hk, hnone, List.any_nil, Bool.not_false]
  · simp only [State.eraseStands, hk]
    rfl

theorem beginFieldsDone_fine {f : BeginFields} (hc : s.ckpt.state = .capturing) (hw : s.ctl.waiting = [])
    (hs : s.ctl.suspended = none) (hblank : (s.array.slot slot).begins = .erased) :
    s.beginFieldsDone slot f none = s.programmed (s.array.putSlot slot { s.array.slot slot with begins := .whole f })
      { s.ckpt with begun := true, asked := false } := by
  have hprog : programField (s.array.slot slot).begins f none = (.whole f, false) := by
    rw [hblank]
    simp [programField, usedField]
  unfold State.beginFieldsDone
  rw [hprog]
  dsimp only
  rw [setArray_opEnded hw hs]
  exact (if_pos hc).trans (if_neg Bool.false_ne_true)

theorem pageProgramDone_fine {p : Nat} {cells : List Word} (hc : s.ckpt.state = .capturing) (hw : s.ctl.waiting = [])
    (hs : s.ctl.suspended = none) (hblank : (s.array.slot slot).place p = .erased) :
    s.pageProgramDone slot p cells none =
      s.programmed (s.array.putSlot slot ((s.array.slot slot).putPlace p (.record p cells)))
        { s.ckpt with buffer := s.ckpt.buffer.tail, asked := false } := by
  have hprog : programPlace ((s.array.slot slot).place p) p cells none = (.record p cells, false) := by
    rw [hblank]
    simp [programPlace, usedPlace]
  unfold State.pageProgramDone
  rw [hprog]
  dsimp only
  rw [setArray_opEnded hw hs]
  exact (if_pos hc).trans (if_neg Bool.false_ne_true)

/-- A program of a field that does not read back as written. -/
theorem programField_faulted {α : Type} [DecidableEq α] (was : Field α) {v : α} {x : Field α} (h : x ≠ .whole v) :
    programField was v (some x) = (if x = .erased then .damaged else x, true) := by
  have hused : usedField x = if x = .erased then .damaged else x := by cases x <;> rfl
  have hne : usedField x ≠ .whole v := by
    rw [hused]
    split_ifs
    · nofun
    · exact h
  rw [← hused]
  simp only [programField, Option.getD_some, hne, decide_false, Bool.and_false, Bool.not_false]

theorem programPlace_faulted (was : Place) {p : Nat} {cells : List Word} {x : Place} (h : x ≠ .record p cells) :
    programPlace was p cells (some x) = (if x = .erased then .checkFailure else x, true) := by
  have hused : usedPlace x = if x = .erased then .checkFailure else x := by cases x <;> rfl
  have hne : usedPlace x ≠ .record p cells := by
    rw [hused]
    split_ifs
    · nofun
    · exact h
  rw [← hused]
  simp only [programPlace, Option.getD_some, hne, decide_false, Bool.and_false, Bool.not_false]

/-- The state once a program's fault has ended a checkpoint all of whose pages are captured. -/
def State.programFailed (s : State) (a : RetArray) : State :=
  { s with
    array := a
    ckpt := s.ckpt.cancelled
    journal := s.journal.ended
    ctl := { s.ctl with op := some (.programAbandon s.ckpt.target) } }

theorem failCheckpoint_programmed (a : RetArray) (page : Option Nat) (hc : s.ckpt.state = .capturing)
    (hw : s.ctl.waiting = []) (hall : s.uncapturedPages = []) (hroom : s.roomFor 32) :
    ({ s with array := a, ctl := { s.ctl with op := none } } : State).failCheckpoint page .programFault =
      ((s.programFailed a).raised .checkpointFailed 32).framed
        (.transfer .checkpointFailed .checkpoint page (some s.ckpt.target) 0 .programFault) := by
  obtain ⟨hprim, hlow⟩ := hroom
  have hover : ({ s with array := a, ctl := { s.ctl with op := none } } : State).captureOver = s.programFailed a := by
    rw [captureOver_of_captured (by exact hc) (by exact hall)]
    simp only [Controller.cancelled, hw, List.filter_nil, if_true, State.programFailed]
  rw [failCheckpoint_eq (by exact hc) (by exact hlow), hover]
  exact placeFrame_empty _ hprim

/-- The event in which a program's fault ends the checkpoint. -/
theorem event_programFailed {f : State → State} {a : RetArray} {page : Option Nat} (hstill : s.still) (hready : s.ready)
    (hf : f s = ((s.programFailed a).raised .checkpointFailed 32).framed
      (.transfer .checkpointFailed .checkpoint page (some s.ckpt.target) 0 .programFault)) :
    s.event f = (((s.programFailed a).raised .checkpointFailed 32).framed
      (.transfer .checkpointFailed .checkpoint page (some s.ckpt.target) 0 .programFault)).withAlert := by
  have hfailed : (s.programFailed a).still := by
    obtain ⟨hclose, hrest, -, hdonor, hcheck, hrun, -⟩ := hstill
    exact ⟨hclose, hrest, rfl, hdonor, hcheck, hrun, rfl⟩
  refine event_settles_alert hready ?_ (still_framed (still_raised hfailed)) ⟨rfl, rfl, rfl, rfl, rfl⟩
  rw [hf]
  exact settle_of_still hfailed

theorem beginFieldsDone_faulted {f : BeginFields} {x : Field BeginFields} (hc : s.ckpt.state = .capturing)
    (hw : s.ctl.waiting = []) (hs : s.ctl.suspended = none) (hx : x ≠ .whole f) :
    s.beginFieldsDone slot f (some x) =
      ({ s with
        array := s.array.putSlot slot { s.array.slot slot with begins := if x = .erased then .damaged else x }
        ctl := { s.ctl with op := none } } : State).failCheckpoint none .programFault := by
  unfold State.beginFieldsDone
  rw [programField_faulted _ hx]
  dsimp only
  rw [setArray_opEnded hw hs]
  exact (if_pos hc).trans (if_pos rfl)

theorem pageProgramDone_faulted {p : Nat} {cells : List Word} {x : Place} (hc : s.ckpt.state = .capturing)
    (hw : s.ctl.waiting = []) (hs : s.ctl.suspended = none) (hx : x ≠ .record p cells) :
    s.pageProgramDone slot p cells (some x) =
      ({ s with
        array := s.array.putSlot slot ((s.array.slot slot).putPlace p (if x = .erased then .checkFailure else x))
        ctl := { s.ctl with op := none } } : State).failCheckpoint (some p) .programFault := by
  unfold State.pageProgramDone
  rw [programPlace_faulted _ hx]
  dsimp only
  rw [setArray_opEnded hw hs]
  exact (if_pos hc).trans (if_pos rfl)

theorem exec_beginFieldsProgrammed {f : BeginFields} {left : Option (Field BeginFields)}
    (hop : s.ctl.op = some (.programBegin slot f)) :
    exec (.beginFieldsProgrammed left) s = .next (s.event (fun t => t.beginFieldsDone slot f left)) := by
  change execBeginFieldsProgrammed left s = _
  simp only [execBeginFieldsProgrammed, hop]

theorem exec_checkpointPageProgrammed {p : Nat} {cells : List Word} {left : Option Place}
    (hop : s.ctl.op = some (.programPage slot p cells)) :
    exec (.checkpointPageProgrammed left) s = .next (s.event (fun t => t.pageProgramDone slot p cells left)) := by
  change execCheckpointPageProgrammed left s = _
  simp only [execCheckpointPageProgrammed, hop]

end Programs

/-- Settles O43: a program that ends well is followed by the next one, and a fault ends the checkpoint. -/
theorem engineProgramsItsSlot : Obligations.EngineProgramsItsSlot := by
  intro s slot hstill hready hc hw hs
  refine ⟨fun f e rest hop hblank hbuf => ?_, fun p cells e next rest hop hblank hb hbuf => ?_,
    fun p cells e hop hblank hb hbuf hall => ?_, fun p q cells => place_putPlace (.inr Place.noConfusion) q,
    fun hall hprim hlow => ?_⟩
  · rw [exec_beginFieldsProgrammed hop]
    exact congrArg Host.Outcome.next (event_programmed hstill hready hc (beginFieldsDone_fine hc hw hs hblank)
      (nextProgram_page (by exact hc) rfl rfl rfl (by exact hbuf)) (still_of_asked hstill hc hc rfl))
  · rw [exec_checkpointPageProgrammed hop]
    have htail : s.ckpt.buffer.tail = next :: rest := by rw [hbuf]; rfl
    have hdone := pageProgramDone_fine (cells := cells) hc hw hs hblank
    rw [htail] at hdone
    exact congrArg Host.Outcome.next (event_programmed hstill hready hc hdone
      (nextProgram_page (by exact hc) (by exact hb) rfl rfl rfl) (still_of_asked hstill hc hc rfl))
  · rw [exec_checkpointPageProgrammed hop]
    have htail : s.ckpt.buffer.tail = [] := by rw [hbuf]; rfl
    have hdone := pageProgramDone_fine (cells := cells) hc hw hs hblank
    rw [htail] at hdone
    exact congrArg Host.Outcome.next (event_programmed hstill hready hc hdone
      (nextProgram_completion (by exact hc) (by exact hb) rfl rfl rfl (by exact hall)) (still_of_finishing hstill rfl hall))
  · intro t failed
    have hended : ∀ a, s.programFailed a = { s with
        array := a
        ckpt := { (s.ckpt.putSlot t { state := .erasing, generation := none, cycle := none, start := none }) with
          state := .erasing, buffer := [], cycle := none, start := none, captured := 0, toCapture := 0, erased := 0
          begun := false, asked := false }
        journal :=
          if s.journal.state = .pendingBase then
            { s.journal with state := .broken, records := [], base := none, start := none }
          else { s.journal with start := none }
        ctl := { s.ctl with op := some (.programAbandon t) } } := fun a => by
      rw [State.programFailed, Journal.ended_eq]
      rfl
    refine ⟨fun f x hop hx => ?_, fun p cells x hop hx => ?_⟩
    · rw [exec_beginFieldsProgrammed hop]
      have hdone := (beginFieldsDone_faulted (slot := slot) hc hw hs hx).trans
        (failCheckpoint_programmed _ none hc hw hall ⟨hprim, hlow⟩)
      rw [event_programFailed hstill hready hdone, hended]
    · rw [exec_checkpointPageProgrammed hop]
      have hdone := (pageProgramDone_faulted (slot := slot) hc hw hs hx).trans
        (failCheckpoint_programmed _ (some p) hc hw hall ⟨hprim, hlow⟩)
      rw [event_programFailed hstill hready hdone, hended]

end Sys2Proof.Machine
end

section
/-! RESTORE PAGE and the end of the page restore's read (R111 to R114, R117). -/

namespace Sys2Proof.Machine

/-! ### RESTORE PAGE: the checks and the list (R111, R113) -/

section Asked

variable {s : State} {r : Request} {p : Byte}

/-- The checks of a page whose number a byte gives. -/
theorem restoreRefusal_eq (s : State) (p : Byte) :
    s.restoreRefusal p.toNat =
      if s.lane.state = .config then some .wrongState
      else if s.mapped p.toNat = false then some .unmapped
      else if s.isCheckpointed p.toNat = false ∨ s.ckpt.active = none then some .noCheckpoint
      else if (s.page p.toNat).state ≠ .suspect ∧ (s.page p.toNat).state ≠ .stale then some .notNeeded
      else none := by
  have hbyte : ¬ 255 < p.toNat := by have := p.isLt; omega
  rw [State.restoreRefusal, if_neg hbyte]
  simp only [Bool.not_eq_true']

theorem onRestorePage_refused {st : Status} (hb : r.body = [p]) (h : s.restoreRefusal p.toNat = some st) :
    s.working.onRestorePage r = s.working.refuse .restorePage r.tag st := by
  simp only [State.onRestorePage, hb, oneByte, show s.working.restoreRefusal p.toNat = some st from h]

/-- A page that passes the checks: it stands on the list already, finds it full, or goes to its end. -/
theorem onRestorePage_listed (hb : r.body = [p]) (h : s.restoreRefusal p.toNat = none) :
    s.working.onRestorePage r =
      if p.toNat ∈ s.rest.list then s.working.refuse .restorePage r.tag .accepted
      else if 64 ≤ s.rest.list.length then s.working.refuse .restorePage r.tag .listFull
      else (s.setRest { s.rest with list := s.rest.list ++ [p.toNat] }).working.refuse .restorePage r.tag .accepted := by
  simp only [State.onRestorePage, hb, oneByte, show s.working.restoreRefusal p.toNat = none from h]
  simp only [List.contains_eq_mem, decide_eq_true_eq]
  rfl

theorem execRestorePage_refused {st : Status} (hstill : s.still) (hs : s.serves .restorePage r)
    (hd : s.working.onRestorePage r = s.working.refuse .restorePage r.tag st) (hst : st ≠ .starting) :
    exec (.restorePage r) s = .next (s.replying .restorePage r.tag st .empty) :=
  congrArg Host.Outcome.next (event_refused (ups := []) hs hstill hd hst)

/-- No check answers that the part is starting. -/
theorem restoreRefusal_ne_starting (p : Nat) : s.restoreRefusal p ≠ some .starting := by
  unfold State.restoreRefusal
  split_ifs <;> simp

end Asked

/-! ### The engine takes a page (R6, R112, R114) -/

section Taken

variable {s : State} {q : Nat} {slot : SlotId}

/-- The controller once a read has been asked for: it starts at a free controller, suspends an erase, and waits behind any other
operation (R93, R94). -/
def Controller.readAsked (c : Controller) (o : ArrayOp) : Controller :=
  match c.op with
  | none => { c with op := some o }
  | some .eraseCommissioning => { c with op := some o, suspended := some .eraseCommissioning }
  | some (.eraseSector i n) => { c with op := some o, suspended := some (.eraseSector i n) }
  | some _ => { c with waiting := c.waiting ++ [o] }

theorem ask_read (s : State) {o : ArrayOp} (h : o.isRead = true) : s.ask o = s.setCtl (s.ctl.readAsked o) := by
  have ho : o ≠ .eraseCommissioning := by
    rintro rfl
    exact Bool.false_ne_true h
  cases hop : s.ctl.op with
  | none => rw [ask_of_free hop ho, Controller.readAsked, hop]
  | some cur =>
    simp only [State.ask, hop, h, Bool.true_and, Controller.readAsked]
    cases cur <;> rfl

/-- The pages once a restore of one of them has begun. -/
def PageRec.restoring (r : PageRec) : PageRec := { r with state := .restoring, suspectAll := true }

/-- The state once the engine has taken a page for a restore from a slot. -/
def State.restoreTaken (s : State) (q : Nat) (slot : SlotId) : State :=
  { s with
    pages := (s.mapPage q PageRec.restoring).pages
    suspects := s.suspects.filter (fun a => decide (a / 64 ≠ q))
    rest := { s.rest with op := .page q slot (s.ckpt.slot slot).generation none }
    ctl := s.ctl.readAsked (.readPage false slot q) }

theorem beginRestore_eq (hrole : s.xfer.role = .none) :
    s.beginRestore q = { s with
      pages := (s.mapPage q PageRec.restoring).pages
      suspects := s.suspects.filter (fun a => decide (a / 64 ≠ q)) } := by
  have hfilter : s.suspects.filter (fun a => a / 64 != q) = s.suspects.filter (fun a => decide (a / 64 ≠ q)) :=
    List.filter_congr fun a _ => by rw [Bool.eq_iff_iff]; simp
  have hlost := lostReceived_other (s := (s.mapPage q PageRec.restoring).clearSuspects q) (p := q) fun x hx => by
    rw [show ((s.mapPage q PageRec.restoring).clearSuspects q).xfer.role = .none from hrole] at hx
    exact Role.noConfusion hx
  rw [← hfilter]
  exact hlost

theorem startPageRestore_eq (hrole : s.xfer.role = .none) (hactive : s.ckpt.active = some slot)
    (hck : s.isCheckpointed q = true) : s.startPageRestore q = s.restoreTaken q slot := by
  unfold State.startPageRestore
  rw [beginRestore_eq hrole]
  dsimp only
  rw [hactive]
  refine (if_pos hck).trans ?_
  rw [ask_read _ rfl]
  rfl

/-- An engine without an operation takes the oldest page that no FILL holds up. -/
theorem takeRestores_takes {n : Nat} (hop : s.rest.op = .none)
    (hfind : s.rest.list.find? (fun p => !s.fillRegion.contains p) = some q)
    (hq : (s.page q).state = .suspect ∨ (s.page q).state = .stale) :
    takeRestores (n + 1) s =
      takeRestores n ((s.setRest { s.rest with list := setDrop q s.rest.list }).startPageRestore q) := by
  rw [takeRestores, if_neg (not_not.mpr hop), hfind]
  exact if_pos hq

theorem fillRegion_of_idle (h : s.link.job = none) : s.fillRegion = [] := by simp only [State.fillRegion, h]

/-- The engine takes the one page of its list. -/
theorem restoresTake_one (hop : s.rest.op = .none) (hlist : s.rest.list = [q]) (hfill : s.fillRegion = [])
    (hrole : s.xfer.role = .none) (hq : (s.page q).state = .suspect ∨ (s.page q).state = .stale)
    (hactive : s.ckpt.active = some slot) (hck : s.isCheckpointed q = true) :
    s.restoresTake = (s.setRest { s.rest with list := [] }).restoreTaken q slot := by
  have hdrop : setDrop q s.rest.list = [] := by simp [hlist, setDrop]
  have htake := takeRestores_takes (n := 0) hop (by simp [hlist, hfill]) hq
  rw [hdrop, startPageRestore_eq (by exact hrole) (by exact hactive) (by exact hck)] at htake
  rw [State.restoresTake, hlist]
  exact htake

/-- A page that passed the checks is SUSPECT or STALE, and there is an active slot that holds its region. -/
theorem restoreRefusal_none {p : Nat} (h : s.restoreRefusal p = none) :
    s.isCheckpointed p = true ∧ ((s.page p).state = .suspect ∨ (s.page p).state = .stale) := by
  unfold State.restoreRefusal at h
  split_ifs at h with _ _ _ hck hst
  constructor
  · simpa using fun hc => hck (.inl hc)
  · by_contra hno
    exact hst ⟨fun hs => hno (.inl hs), fun hs => hno (.inr hs)⟩

/-- A request whose answer settles into a still part: the reply as that part stands. -/
theorem event_answer_settles {u v : State} {k : ReqKind} {r : Request} {st : Status} {b : ReplyBody} (hs : s.serves k r)
    (hd : s.working.dispatch k r [] = u.answer k r.tag st b)
    (hset : (u.answer k r.tag st b).settle = v.working.answer k r.tag st b) (hv : v.still) (hends : v.EndsAs s)
    (ha : v.alertCond = s.alertCond) (hst : st ≠ .starting) :
    s.event (fun t => t.takeRequest k r []) = v.replying k r.tag st b := by
  have ⟨_, _, hj, h2, ⟨hlines, hquiet⟩, _⟩ := hs
  obtain ⟨hj', h2'⟩ : v.link.job = none ∧ v.link.second = none := by
    rw [hends.link]
    exact ⟨hj, h2⟩
  rw [event_of_settle (f := fun t => t.takeRequest k r []) (by rw [takeRequest_of_serves hs, hd, hset])
    (settle_of_still (s := v.working.answer k r.tag st b) hv) (readsDone_of_idle hj' h2'),
    closeEvent_of_answer (s := v.working.answer k r.tag st b) (k := k) (tag := r.tag) (st := st) (b := b) rfl rfl hst
      (hends.notes.trans hquiet.notes_eq)]
  exact drivePins_same (u := v.replying k r.tag st b) hlines hends.pins hends.permit hends.phase ha

/-- RESTORE PAGE of a page that the engine takes at once. -/
theorem execRestorePage_takes {r : Request} {p : Byte} (hstill : s.still) (hs : s.serves .restorePage r) (hb : r.body = [p])
    (hcheck : s.restoreRefusal p.toNat = none) (hop : s.rest.op = .none) (hactive : s.ckpt.active = some slot)
    (hflight : s.inFlight = false) (hrole : s.xfer.role = .none) :
    exec (.restorePage r) s = .next
      (((s.setRest { s.rest with list := [] }).restoreTaken p.toNat slot).replying .restorePage r.tag .accepted .empty) := by
  obtain ⟨hck, hpage⟩ := restoreRefusal_none hcheck
  have ⟨hrunning, _, hj, _⟩ := hs
  have ⟨hclose, hrest, _⟩ := hstill
  have hempty : s.rest.list = [] := hrest.resolve_left (not_not.mpr hop)
  have hlisted : s.working.onRestorePage r =
      (s.setRest { s.rest with list := [p.toNat] }).working.refuse .restorePage r.tag .accepted := by
    rw [onRestorePage_listed hb hcheck, hempty]
    exact (if_neg List.not_mem_nil).trans (if_neg (by decide))
  have htaken : ((s.setRest { s.rest with list := [] }).restoreTaken p.toNat slot).still :=
    still_of_blocks hstill hflight rfl rfl rfl rfl rfl (.inl RestoreOp.noConfusion)
  have htake := restoresTake_one (q := p.toNat) (slot := slot)
    (s := (s.setRest { s.rest with list := [p.toNat] }).working.refuse .restorePage r.tag .accepted) hop rfl
    (fillRegion_of_idle (by exact hj)) hrole hpage hactive hck
  refine congrArg Host.Outcome.next (event_answer_settles hs hlisted ?_ htaken ⟨rfl, rfl, rfl, rfl, rfl⟩ rfl (by decide))
  refine (if_pos hrunning).trans (settleBlocks_of_restoresTake hclose (htake.trans ?_) ?_)
  · rfl
  · exact htaken

end Taken

/-- Settles O46: the checks by their order, the list while another operation runs, and the page taken where none does. -/
theorem restorePageIsCheckedThenListed : Obligations.RestorePageIsCheckedThenListed := by
  intro s r p hstill hs hb q refusal
  have hrefusal : s.restoreRefusal q = refusal := restoreRefusal_eq s p
  refine ⟨fun st hst => ?_, fun hnone hop hflight => ?_, fun slot hnone hop hactive hflight hrole => ?_⟩
  · refine execRestorePage_refused hstill hs (onRestorePage_refused hb (hrefusal.trans hst)) fun hstart => ?_
    exact restoreRefusal_ne_starting q (hrefusal.trans (hst.trans (congrArg some hstart)))
  · have hd := onRestorePage_listed hb (hrefusal.trans hnone)
    by_cases hmem : q ∈ s.rest.list
    · rw [if_pos hmem] at hd ⊢
      exact execRestorePage_refused hstill hs hd (by decide)
    · rw [if_neg hmem] at hd ⊢
      by_cases hfull : 64 ≤ s.rest.list.length
      · rw [if_pos hfull] at hd ⊢
        exact execRestorePage_refused hstill hs hd (by decide)
      · rw [if_neg hfull] at hd ⊢
        have ⟨_, _, hj, h2, _⟩ := hs
        have hlisted : (s.setRest { s.rest with list := s.rest.list ++ [q] }).still :=
          still_of_blocks hstill hflight rfl rfl rfl rfl rfl (.inl hop)
        exact congrArg Host.Outcome.next (event_reply_same (ups := [])
          (u := (s.setRest { s.rest with list := s.rest.list ++ [q] }).working) hs hd rfl hj h2 rfl (by decide)
          (still_setLink.mpr hlisted) rfl rfl rfl rfl)
  · intro read
    refine ⟨(s.mapPage q PageRec.restoring).pages, onlyPage_mapPage (by simp [PageRec.restoring, PageRec.fresh]), ?_⟩
    exact execRestorePage_takes hstill hs hb (hrefusal.trans hnone) hop hactive hflight hrole

/-! ### The end of a page restore's read (R114, R117) -/

section Read

variable {s : State} {slot : SlotId} {p : Nat} {lost : Bool}

/-- The array once a page has been read whose page check is lost or not (R92, log entry 13). -/
def RetArray.afterRead (a : RetArray) (slot : SlotId) (p : Nat) (lost : Bool) : RetArray :=
  if lost = true then a.putSlot slot ((a.slot slot).putPlace p .checkFailure) else a

/-- A record is read with its check as it stands; any other place reads as it is. -/
theorem losePlace_kept (h : lost = false) : s.losePlace slot p lost = s := by
  subst h
  rfl

theorem losePlace_lost {q : Nat} {cells : List Word} (h : (s.array.slot slot).place p = .record q cells) :
    s.losePlace slot p true = s.setArray (s.array.putSlot slot ((s.array.slot slot).putPlace p .checkFailure)) := by
  simp only [State.losePlace, State.readPlace, h]

/-- The controller goes on as the read ends: a suspended erase resumes. -/
def State.readEnded (s : State) (a : RetArray) : State :=
  { s with array := a, ctl := { s.ctl with op := s.ctl.suspended, suspended := none } }

/-- The values a read gives are kept for the restore write. -/
theorem pageReadDone_keeps {a : RetArray} {g : Option Word} {cells : List Word}
    (hlost : s.losePlace slot p lost = s.setArray a) (hfree : s.ctl.suspended = none → s.ctl.waiting = [])
    (hread : ∀ o ∈ s.ctl.waiting, 3 ≤ o.rank) (hop : s.rest.op = .page p slot g none)
    (hres : placeResult p ((a.slot slot).place p) = .ok cells) :
    s.pageReadDone slot p lost = (s.readEnded a).setRest { s.rest with op := .page p slot g (some cells) } := by
  have hended : (s.setArray a).opEnded = s.readEnded a := opEnded_resumes (s := s.setArray a) hfree hread
  unfold State.pageReadDone
  rw [hlost]
  dsimp only
  rw [hended, show (s.readEnded a).rest.op = .page p slot g none from hop]
  refine (if_pos ⟨rfl, rfl⟩).trans ?_
  rw [show placeResult p ((s.readEnded a).readPlace slot p) = .ok cells from hres]
  rfl

/-- A read that gives none fails the restore. -/
theorem pageReadDone_fails {a : RetArray} {g : Option Word} {why : Reason}
    (hlost : s.losePlace slot p lost = s.setArray a) (hfree : s.ctl.suspended = none → s.ctl.waiting = [])
    (hread : ∀ o ∈ s.ctl.waiting, 3 ≤ o.rank) (hop : s.rest.op = .page p slot g none)
    (hres : placeResult p ((a.slot slot).place p) = .error why) :
    s.pageReadDone slot p lost = (s.readEnded a).failPageRestore p (some slot) why := by
  have hended : (s.setArray a).opEnded = s.readEnded a := opEnded_resumes (s := s.setArray a) hfree hread
  unfold State.pageReadDone
  rw [hlost]
  dsimp only
  rw [hended, show (s.readEnded a).rest.op = .page p slot g none from hop]
  refine (if_pos ⟨rfl, rfl⟩).trans ?_
  rw [show placeResult p ((s.readEnded a).readPlace slot p) = .error why from hres]

/-- A page whose restore has failed. -/
def PageRec.unrestored (r : PageRec) : PageRec := { r with state := .suspect }

/-- A page restore has failed: its page is SUSPECT, the engine has no operation, and the failure has its frame (R117). -/
def State.pageRestoreLost (s : State) (p : Nat) (slot : Option SlotId) (why : Reason) : State :=
  (({ s with
      pages := (s.mapPage p PageRec.unrestored).pages, rest := { s.rest with op := .none } } : State).raised
    .restoreFailed 32).framed (.transfer .restoreFailed .pageRestore (some p) slot 0 why)

theorem failPageRestore_eq (hroom : s.roomFor 32) (slot : Option SlotId) (why : Reason) :
    s.failPageRestore p slot why = s.pageRestoreLost p slot why := by
  obtain ⟨hprim, hlow⟩ := hroom
  obtain ⟨t, ht⟩ : ∃ t, t = ({ s with
    pages := (s.mapPage p PageRec.unrestored).pages, rest := { s.rest with op := .none } } : State) := ⟨_, rfl⟩
  have hraise : t.raise .restoreFailed 32 = t.raised .restoreFailed 32 := raise_low (by rw [ht]; exact hlow)
  have hframe := placeFrame_empty (s := t.raised .restoreFailed 32)
    (.transfer .restoreFailed .pageRestore (some p) slot 0 why) (by rw [ht]; exact hprim)
  rw [State.pageRestoreLost, ← ht, ← hframe, ← hraise, ht]
  rfl

/-- What a place that gives no values, or one whose record loses its check, leaves in the array and fails with. -/
theorem read_without_values {why : Reason}
    (h : lost = false ∧ (s.array.slot slot).place p = .erased ∧ why = .notCaptured ∨
      lost = false ∧ (s.array.slot slot).place p = .checkFailure ∧ why = .array ∨
      lost = false ∧ (∃ q cells, q ≠ p ∧ (s.array.slot slot).place p = .record q cells) ∧ why = .array ∨
      lost = true ∧ (∃ q cells, (s.array.slot slot).place p = .record q cells) ∧ why = .array) :
    s.losePlace slot p lost = s.setArray (s.array.afterRead slot p lost) ∧
      placeResult p (((s.array.afterRead slot p lost).slot slot).place p) = .error why := by
  rcases h with ⟨rfl, hplace, rfl⟩ | ⟨rfl, hplace, rfl⟩ | ⟨rfl, ⟨q, cells, hq, hplace⟩, rfl⟩ |
    ⟨rfl, ⟨q, cells, hplace⟩, rfl⟩
  · refine ⟨losePlace_kept rfl, ?_⟩
    rw [RetArray.afterRead, if_neg Bool.false_ne_true, hplace]
    rfl
  · refine ⟨losePlace_kept rfl, ?_⟩
    rw [RetArray.afterRead, if_neg Bool.false_ne_true, hplace]
    rfl
  · refine ⟨losePlace_kept rfl, ?_⟩
    rw [RetArray.afterRead, if_neg Bool.false_ne_true, hplace]
    exact if_neg hq
  · refine ⟨losePlace_lost hplace, ?_⟩
    rw [RetArray.afterRead, if_pos rfl, slot_putSlot_same, place_putPlace (.inr Place.noConfusion), if_pos rfl]
    rfl

theorem exec_pageRestoreReadDone (hop : s.ctl.op = some (.readPage false slot p)) :
    exec (.pageRestoreReadDone lost) s = .next (s.event (fun t => t.pageReadDone slot p lost)) := by
  change execPageRestoreReadDone lost s = _
  simp only [execPageRestoreReadDone, hop]

end Read

/-- Settles O47: the controller goes on, and the engine either waits for its restore write or has no operation. -/
theorem pageRestoreReadKeepsOrFails : Obligations.PageRestoreReadKeepsOrFails := by
  intro s slot p g hstill hready hop hctl hfree hread after
  refine ⟨fun cells hplace => ?_, fun lost why hlist hflight hprim hlow hwhy => ?_⟩
  · have hdone := pageReadDone_keeps (lost := false) (a := s.array) rfl hfree hread hop
      (by rw [hplace]; exact if_pos rfl)
    have hkept : ((s.readEnded s.array).setRest { s.rest with op := .page p slot g (some cells) }).still := by
      obtain ⟨hclose, -, hrest⟩ := hstill
      exact ⟨hclose, .inl RestoreOp.noConfusion, hrest⟩
    rw [exec_pageRestoreReadDone hctl]
    refine congrArg Host.Outcome.next (event_settles_same hready ?_ hkept ⟨rfl, rfl, rfl, rfl, rfl⟩ rfl)
    rw [hdone]
    exact settle_of_still hkept
  · obtain ⟨hlost, hres⟩ := read_without_values hwhy
    have hdone := pageReadDone_fails hlost hfree hread hop hres
    rw [failPageRestore_eq (s := s.readEnded _) ⟨hprim, hlow⟩] at hdone
    have hfailed : ((s.readEnded (s.array.afterRead slot p lost)).pageRestoreLost p (some slot) why).still :=
      still_of_blocks hstill hflight rfl rfl rfl rfl rfl (.inr hlist)
    refine ⟨(s.mapPage p PageRec.unrestored).pages, onlyPage_mapPage (by simp [PageRec.unrestored, PageRec.fresh]), ?_⟩
    rw [exec_pageRestoreReadDone hctl]
    refine congrArg Host.Outcome.next (event_settles_alert hready ?_ hfailed ⟨rfl, rfl, rfl, rfl, rfl⟩)
    rw [hdone]
    exact settle_of_still hfailed

end Sys2Proof.Machine
end

section
/-! CAPTURE: the page that the grant takes, its way into the buffer, and the checkpoint that a new finding ends (R101 to R104,
R107). -/

namespace Sys2Proof.Machine

/-! ### The page a capture grant takes (R101) -/

section Choice

theorem ne_of_sound_or_stale {x : PageState} (h : x = .sound ∨ x = .stale) : x ≠ .unset ∧ x ≠ .restoring := by
  rcases h with rfl | rfl <;> exact ⟨nofun, nofun⟩

/-- The keys of a table in its canonical form rise. -/
theorem keys_ascending {α : Type} [DecidableEq α] {d : α} {m : List (Nat × α)} (h : tabWf d m = true) :
    (m.map Prod.fst).Pairwise (· < ·) := by
  induction m with
  | nil => exact List.Pairwise.nil
  | cons x m ih =>
    obtain ⟨k, v⟩ := x
    simp only [tabWf, Bool.and_eq_true] at h
    obtain ⟨⟨-, habove⟩, hwf⟩ := h
    have hrest := ih hwf
    refine List.pairwise_cons.mpr ⟨?_, hrest⟩
    cases m with
    | nil => simp
    | cons y m =>
      have hk : k < y.1 := by simpa only [tabAbove, decide_eq_true_eq] using habove
      obtain ⟨hfirst, -⟩ := List.pairwise_cons.mp hrest
      intro q hq
      rcases List.mem_cons.mp hq with rfl | hq
      · exact hk
      · exact hk.trans (hfirst q hq)

/-- A search through a rising list finds the lowest. -/
theorem find?_ascending {l : List Nat} {P : Nat → Bool} {p : Nat} (hl : l.Pairwise (· < ·)) (hp : p ∈ l) (hP : P p = true)
    (hmin : ∀ q ∈ l, q < p → P q = false) : l.find? P = some p := by
  induction l with
  | nil => exact absurd hp List.not_mem_nil
  | cons a l ih =>
    obtain ⟨ha, hl⟩ := List.pairwise_cons.mp hl
    rcases List.mem_cons.mp hp with rfl | hp
    · exact List.find?_cons_of_pos hP
    · rw [List.find?_cons_of_neg (by simp [hmin a List.mem_cons_self (ha p hp)])]
      exact ih hl hp fun q hq => hmin q (List.mem_cons_of_mem a hq)

variable {s : State} {p : Nat} {forced : Bool}

theorem uncapturedPages_ascending (hwf : s.pagesWf = true) : s.uncapturedPages.Pairwise (· < ·) :=
  (keys_ascending hwf).filter _

/-- A forced page that is ready is taken; without one, the lowest uncaptured page that is. -/
theorem captureChoice_eq (hwf : s.pagesWf = true) (hmark : (s.page p).uncaptured = true)
    (hready : (s.page p).state = .sound ∨ (s.page p).state = .stale)
    (h : forced = true ∧ s.forcedPage = some p ∨ forced = false ∧ s.forcedPage = none ∧
      ∀ q, q < p → (s.page q).uncaptured = true → (s.page q).state ≠ .sound ∧ (s.page q).state ≠ .stale) :
    s.captureChoice = some (p, forced) := by
  have hP : (decide ((s.page p).state = .sound) || decide ((s.page p).state = .stale)) = true := by simpa using hready
  unfold State.captureChoice
  dsimp only
  rcases h with ⟨rfl, hforced⟩ | ⟨rfl, hforced, hmin⟩
  · rw [hforced]
    exact if_pos hP
  · rw [hforced]
    have hfind := find?_ascending (P := fun q => decide ((s.page q).state = .sound) || decide ((s.page q).state = .stale))
      (uncapturedPages_ascending hwf) (mem_uncapturedPages.mpr hmark) hP fun q hq hlow => by
        simpa using hmin q hlow (mem_uncapturedPages.mp hq)
    rw [hfind]
    rfl

/-- With no uncaptured page UNSET there is none to pass over. -/
theorem passUnsetBelow_of_set (h : ∀ q, (s.page q).uncaptured = true → (s.page q).state ≠ .unset) (p : Nat) :
    s.passUnsetBelow p = s := by
  have hnone : s.uncapturedPages.filter (fun q => decide (q < p) && decide ((s.page q).state = .unset)) = [] :=
    List.filter_eq_nil_iff.mpr fun q hq => by simp [h q (mem_uncapturedPages.mp hq)]
  unfold State.passUnsetBelow
  rw [hnone]
  rfl

/-- A grant of an UNSET-free capture scans the page it takes. -/
theorem captureGrant_eq (hchoice : s.captureChoice = some (p, forced))
    (hset : ∀ q, (s.page q).uncaptured = true → (s.page q).state ≠ .unset)
    (hone : ∀ o, o < 64 → (s.cell (p * 64 + o)).damage ≠ .oneBit) :
    s.captureGrant [] =
      if (s.pageScan p).2.bad = [] then
        (s.mapPage p PageRec.captured).setCkpt { s.ckpt with
          buffer := s.ckpt.buffer ++ [{ page := p, cells := (s.pageScan p).2.values, forced := forced }]
          captured := s.ckpt.captured + 1 }
      else s.handOn p (s.pageScan p).2 := by
  have hpass : (if forced = true then s else s.passUnsetBelow p) = s := by
    rw [passUnsetBelow_of_set hset, ite_self]
  have hcorr : (s.pageScan p).2.corrected = 0 := by
    rw [(pageScan_counts s p).1, offsetsWith_nil hone]
    rfl
  unfold State.captureGrant
  rw [hchoice]
  dsimp only
  rw [hpass, show scanPage (fun _ => false) p (s.strike []) = s.pageScan p from rfl, pageScan_state hone, hcorr, if_pos rfl]
  rfl

end Choice

/-! ### The checkpoint behind the grant -/

section Behind

variable {s : State} {p : Nat} {forced : Bool}

/-- A capture whose uncaptured pages can all be captured, or will be restored, and whose program is under way, stands. -/
theorem flightStands_of_pagesLeft (hc : s.ckpt.state = .capturing) (hprog : s.ckpt.begun = false ∨ s.ckpt.asked = true)
    (hleft : ∀ q, (s.page q).uncaptured = true →
      (s.page q).state ≠ .unset ∧ ((s.page q).state = .suspect → q ∈ s.rest.list)) : s.flightStands = true := by
  have hsource : s.uncapturedPages.any s.unrestorable = false := by
    rw [List.any_eq_false]
    intro q hq
    simpa [State.unrestorable] using (hleft q (mem_uncapturedPages.mp hq)).2
  have hset : (s.uncapturedPages == [] || s.uncapturedPages.any (fun q => decide ((s.page q).state ≠ .unset))) = true := by
    rw [Bool.or_eq_true, beq_iff_eq, List.any_eq_true]
    refine (em _).imp_right fun hne => ?_
    obtain ⟨q, hq⟩ := List.exists_mem_of_ne_nil _ hne
    refine ⟨q, hq, ?_⟩
    simpa using (hleft q (mem_uncapturedPages.mp hq)).1
  have hasked : (!s.ckpt.begun || s.ckpt.asked) = true := by
    rcases hprog with h | h <;> simp [h]
  simp only [State.flightStands, hc, hsource, hset, hasked, Bool.not_false, Bool.true_or, Bool.and_self]

/-- The end of a capture in which no page is UNSET clears the uncaptured marks and leaves the pages alone otherwise. -/
theorem page_mapPages_captured_of_set {ps : List Nat} (hset : ∀ q ∈ ps, (s.page q).state ≠ .unset) (q : Nat) :
    (s.mapPages PageRec.captured ps).page q = if q ∈ ps then (s.page q).captured else s.page q := by
  induction ps generalizing s with
  | nil => rfl
  | cons p ps ih =>
    have hne : (s.page p).captured ≠ PageRec.fresh := fun h => hset p List.mem_cons_self (congrArg PageRec.state h)
    have hone : ∀ x, (s.mapPage p PageRec.captured).page x = if x = p then (s.page x).captured else s.page x :=
      onlyPage_mapPage hne
    have hset' : ∀ x ∈ ps, ((s.mapPage p PageRec.captured).page x).state ≠ .unset := fun x hx => by
      rw [hone]
      split_ifs
      · exact hset x (List.mem_cons_of_mem p hx)
      · exact hset x (List.mem_cons_of_mem p hx)
    rw [State.mapPages, ih hset', hone]
    by_cases hq : q = p
    · subst hq
      simp [PageRec.captured]
    · simp [hq]

theorem page_captureOver_of_set (hc : s.ckpt.state = .capturing)
    (hset : ∀ q, (s.page q).uncaptured = true → (s.page q).state ≠ .unset) (q : Nat) :
    s.captureOver.page q = (s.page q).captured := by
  have hpage := page_mapPages_captured_of_set (s := s) (ps := s.uncapturedPages)
    (fun x hx => hset x (mem_uncapturedPages.mp hx)) q
  have hpages : s.captureOver.pages = (s.mapPages PageRec.captured s.uncapturedPages).pages := if_pos hc
  rw [State.page, hpages]
  refine hpage.trans ?_
  split_ifs with hq
  · rfl
  · have hclear : (s.page q).uncaptured = false := by simpa [mem_uncapturedPages] using hq
    rw [PageRec.captured, ← hclear]

/-- An uncaptured page that no restore will reach fails the checkpoint in flight (R103). -/
theorem sourceFault_of_one (hc : s.ckpt.state = .capturing) (hmark : (s.page p).uncaptured = true)
    (hp : s.unrestorable p = true) (hone : ∀ q, q ≠ p → (s.page q).uncaptured = true → s.unrestorable q = false) :
    s.sourceFault = s.failCheckpoint (some p) .sourceFault := by
  have hfind : s.uncapturedPages.find? s.unrestorable = some p := by
    have hsome : (s.uncapturedPages.find? s.unrestorable).isSome = true :=
      List.find?_isSome.mpr ⟨p, mem_uncapturedPages.mpr hmark, hp⟩
    obtain ⟨q, hq⟩ := Option.isSome_iff_exists.mp hsome
    rw [hq]
    by_contra hne
    have hfault := List.find?_some hq
    rw [hone q (fun h => hne (congrArg some h)) (mem_uncapturedPages.mp (List.mem_of_find?_eq_some hq))] at hfault
    exact Bool.false_ne_true hfault
  unfold State.sourceFault
  rw [if_pos (by simp [State.inFlight, hc]), hfind]

/-- The state once a capture grant has handed on the one new cell it found. -/
def State.captureFound (s : State) (g : List (Nat × PageRec)) (p o : Nat) : State :=
  (({ s with pages := g, suspects := s.suspects ++ [p * 64 + o] } : State).raised .uncorrectable 64).framed
    (.patrol .uncorrectable p 0 [o] s.patrol.round)

/-- The checkpoint that this ends. -/
def State.captureFailed (s : State) (p : Nat) : State :=
  (s.captureOver.raised .checkpointFailed 32).framedBehind
    (.transfer .checkpointFailed .checkpoint (some p) (some s.ckpt.target) 0 .sourceFault)

variable {g : List (Nat × PageRec)} {o : Nat}

/-- The page in which the cell was found is SUSPECT now, and no page's mark has changed. -/
theorem page_captureFound (hg : s.onlyPage g p (fun x => { x with state := .suspect })) (q : Nat) :
    (s.captureFound g p o).page q = { s.page q with state := if q = p then .suspect else (s.page q).state } := by
  refine (hg q).trans ?_
  split_ifs <;> rfl

/-- The failed checkpoint leaves a part that stands still otherwise: its engine is ERASING. -/
theorem still_captureFailed (hstill : s.still) (hc : s.ckpt.state = .capturing) :
    ((s.captureFound g p o).captureFailed p).still := by
  obtain ⟨hclose, hrest, -, hdonor, hcheck, hrun, -⟩ := hstill
  have hckpt : ((s.captureFound g p o).captureFailed p).ckpt = s.ckpt.cancelled := if_pos hc
  have hflight : ((s.captureFound g p o).captureFailed p).flightStands = true := by rw [State.flightStands, hckpt]; rfl
  have herase : ((s.captureFound g p o).captureFailed p).eraseStands = true := by rw [State.eraseStands, hckpt]; rfl
  exact ⟨hclose, hrest, hflight, hdonor, hcheck, hrun, herase⟩

/-- A finding in a page that no restore will reach ends the checkpoint in the same event (R103). -/
theorem sourceFault_captureFound (hc : s.ckpt.state = .capturing)
    (hg : s.onlyPage g p (fun x => { x with state := .suspect })) (hmark : (s.page p).uncaptured = true)
    (hlist : p ∉ s.rest.list)
    (hleft : ∀ q, q ≠ p → (s.page q).uncaptured = true → (s.page q).state = .suspect → q ∈ s.rest.list)
    (hsec : s.faults.secondary = none) (hlow : s.pressure.p + 96 < 512) :
    (s.captureFound g p o).sourceFault = (s.captureFound g p o).captureFailed p := by
  have hpage := page_captureFound (o := o) hg
  have hrest : (s.captureFound g p o).rest = s.rest := rfl
  have hp : (s.captureFound g p o).unrestorable p = true := by simp [State.unrestorable, hpage, hrest, hlist]
  have hone : ∀ q, q ≠ p → ((s.captureFound g p o).page q).uncaptured = true →
      (s.captureFound g p o).unrestorable q = false := fun q hqp hq => by
    rw [hpage] at hq
    simpa [State.unrestorable, hpage, hrest, hqp] using hleft q hqp hq
  have hlow' : (s.captureFound g p o).pressure.p + 32 < 512 := by
    rw [show (s.captureFound g p o).pressure.p = s.pressure.p + 64 from rfl]
    omega
  rw [sourceFault_of_one (s := s.captureFound g p o) hc (by rw [hpage]; exact hmark) hp hone,
    failCheckpoint_eq (s := s.captureFound g p o) hc hlow']
  exact placeFrame_behind (s := (s.captureFound g p o).captureOver.raised .checkpointFailed 32) rfl hsec

/-- Behind it nothing else begins. -/
theorem settle_captureFound (hrunning : s.phase = .running) (hstill : s.still) (hc : s.ckpt.state = .capturing)
    (hfault : (s.captureFound g p o).sourceFault = (s.captureFound g p o).captureFailed p) :
    (s.captureFound g p o).settle = (s.captureFound g p o).captureFailed p := by
  have ⟨hclose, hrest, _⟩ := hstill
  have herasing : ((s.captureFound g p o).captureFailed p).ckpt.state ≠ .capturing := by
    rw [show ((s.captureFound g p o).captureFailed p).ckpt = s.ckpt.cancelled from if_pos hc]
    exact EngineState.noConfusion
  have hpass : ((s.captureFound g p o).captureFailed p).passUnset = (s.captureFound g p o).captureFailed p :=
    if_neg fun h => herasing h.1
  have hnext : ((s.captureFound g p o).captureFailed p).nextProgram = (s.captureFound g p o).captureFailed p :=
    if_neg fun h => herasing h.1
  exact (if_pos hrunning).trans (settleBlocks_of_flight (s := s.captureFound g p o) hclose hrest
    (by rw [hfault, hpass, hnext]) (still_captureFailed hstill hc))

theorem endsAs_captureFailed (s : State) : ((s.captureFound g p o).captureFailed p).EndsAs s where
  phase := rfl
  link := rfl
  notes := rfl
  pins := rfl
  permit := by unfold State.permitCond; rfl

/-- What the failed checkpoint leaves, field by field. -/
theorem captureFailed_eq (hc : s.ckpt.state = .capturing) :
    (s.captureFound g p o).captureFailed p =
      ((((({ s with
          pages := (s.captureFound g p o).captureOver.pages, suspects := s.suspects ++ [p * 64 + o]
          ckpt := s.ckpt.cancelled, journal := s.journal.ended, ctl := s.ctl.cancelled s.ckpt.target } : State).raised
        .uncorrectable 64).framed (.patrol .uncorrectable p 0 [o] s.patrol.round)).raised .checkpointFailed 32).framedBehind
        (.transfer .checkpointFailed .checkpoint (some p) (some s.ckpt.target) 0 .sourceFault)) := by
  rw [State.captureFailed, captureOver_of_capturing (s := s.captureFound g p o) hc]
  rfl

end Behind

/-! ### CAPTURE -/

section Grant

variable {s : State} {p : Nat} {forced : Bool}

/-- The state once a page is buffered with the values its cells hold (R102, R104). -/
def State.buffered (s : State) (p : Nat) (forced : Bool) : State :=
  { s with
    pages := (s.mapPage p PageRec.captured).pages
    ckpt := { s.ckpt with
      captured := s.ckpt.captured + 1
      buffer := s.ckpt.buffer ++
        [{ page := p, cells := (List.range 64).map (fun o => (s.cell (p * 64 + o)).value), forced := forced }] } }

/-- A page of sound cells goes into the buffer. -/
theorem captureGrant_sound (hchoice : s.captureChoice = some (p, forced))
    (hset : ∀ q, (s.page q).uncaptured = true → (s.page q).state ≠ .unset)
    (hsound : ∀ o, o < 64 → (s.cell (p * 64 + o)).damage = .intact) :
    s.captureGrant [] = s.buffered p forced := by
  obtain ⟨hvalues, hbad⟩ := pageScan_readable (s := s) (p := p) fun o ho => by rw [hsound o ho]; exact Damage.noConfusion
  rw [captureGrant_eq hchoice hset fun o ho => by rw [hsound o ho]; exact Damage.noConfusion, if_pos hbad, hvalues]
  rfl

/-- One new uncorrectable cell is handed on. -/
theorem captureGrant_found {o : Nat} (hchoice : s.captureChoice = some (p, forced))
    (hset : ∀ q, (s.page q).uncaptured = true → (s.page q).state ≠ .unset)
    (hready : (s.page p).state = .sound ∨ (s.page p).state = .stale) (ho : o < 64)
    (hd : (s.cell (p * 64 + o)).damage = .twoBits)
    (hothers : ∀ x, x < 64 → x ≠ o → (s.cell (p * 64 + x)).damage = .intact) (hall : (s.page p).suspectAll = false)
    (hl : p * 64 + o ∉ s.suspects) (hlen : s.suspects.length < 32) (hauto : s.isAutoRestore p = false)
    (hrole : s.xfer.role = .none) (hprim : s.faults.primary = none) (hlow : s.pressure.p + 64 < 512) :
    ∃ g, s.onlyPage g p (fun x => { x with state := .suspect }) ∧ s.captureGrant [] = s.captureFound g p o := by
  have hone : ∀ x, x < 64 → (s.cell (p * 64 + x)).damage ≠ .oneBit := fun x hx => by
    by_cases hxo : x = o
    · rw [hxo, hd]
      exact Damage.noConfusion
    · rw [hothers x hx hxo]
      exact Damage.noConfusion
  have hbad : (s.pageScan p).2.bad = [o] := (pageScan_counts s p).2.trans
    (offsetsWith_one ho hd fun x hx hxo => by rw [hothers x hx hxo]; exact Damage.noConfusion)
  have hcorr : (s.pageScan p).2.corrected = 0 := by
    rw [(pageScan_counts s p).1, offsetsWith_nil hone]
    rfl
  obtain ⟨hunset, hrestoring⟩ := ne_of_sound_or_stale hready
  obtain ⟨g, hg, hhand⟩ := handOn_one hbad hcorr hall hl hlen hrole hunset hrestoring hauto hprim hlow
  refine ⟨g, hg, ?_⟩
  rw [captureGrant_eq hchoice hset hone, if_neg (by rw [hbad]; exact List.cons_ne_nil _ _), hhand]
  rfl

/-- Behind it the part stands still if it did before: every page still to capture was one before. -/
theorem still_buffered (hstill : s.still) (hc : s.ckpt.state = .capturing) (hprog : s.ckpt.begun = false ∨ s.ckpt.asked = true)
    (hg : s.onlyPage (s.mapPage p PageRec.captured).pages p PageRec.captured)
    (hleft : ∀ q, q ≠ p → (s.page q).uncaptured = true →
      (s.page q).state ≠ .unset ∧ ((s.page q).state = .suspect → q ∈ s.rest.list)) : (s.buffered p forced).still := by
  obtain ⟨hclose, hrest, -, hdonor, hcheck, hrun, -⟩ := hstill
  have hpage : ∀ q, (s.buffered p forced).page q = if q = p then (s.page q).captured else s.page q := hg
  refine ⟨hclose, hrest, flightStands_of_pagesLeft hc hprog fun q hq => ?_, hdonor, hcheck, hrun, ?_⟩
  · rw [hpage] at hq ⊢
    split_ifs at hq ⊢ with hqp
    · exact absurd hq Bool.false_ne_true
    · exact hleft q hqp hq
  · rw [State.eraseStands, show (s.buffered p forced).ckpt.state = .capturing from hc]
    rfl

theorem countNonHost_endsAs (s : State) : s.countNonHost.EndsAs s := ⟨rfl, rfl, rfl, rfl, rfl⟩

theorem exec_capture (hpick : s.pick = some .capture) :
    exec (.capture []) s = .next (s.event (fun t => t.countNonHost.captureGrant [])) := if_pos hpick

end Grant

/-- Settles O42: the part stands still behind a page that is buffered, and behind the checkpoint that a finding ends. -/
theorem captureTakesOnePage : Obligations.CaptureTakesOnePage := by
  intro s p forced hstill hready hwf hpick hc hprog hmark hpage hleft hforced
  have ⟨hrunning, _⟩ := hready
  have hset : ∀ q, (s.page q).uncaptured = true → (s.page q).state ≠ .unset := fun q hq => by
    by_cases hqp : q = p
    · rw [hqp]
      exact (ne_of_sound_or_stale hpage).1
    · exact (hleft q hqp hq).1
  have hchoice := captureChoice_eq hwf hmark hpage hforced
  rw [exec_capture hpick]
  refine ⟨fun hsound => ?_, fun o ho hd hothers hall hl hlen hauto hlist hrole hprim hsec hlow => ?_⟩
  · have hgrant := captureGrant_sound (s := s.countNonHost) hchoice hset hsound
    have hg : s.onlyPage (s.mapPage p PageRec.captured).pages p PageRec.captured :=
      onlyPage_mapPage fun h => hset p hmark (congrArg PageRec.state h)
    have hbuffered := still_buffered (forced := forced) (s := s.countNonHost) hstill hc hprog hg hleft
    refine ⟨_, hg, congrArg Host.Outcome.next ?_⟩
    refine event_settles_same (u := s.countNonHost.buffered p forced) hready ?_ hbuffered ⟨rfl, rfl, rfl, rfl, rfl⟩ rfl
    rw [hgrant]
    exact settle_of_still hbuffered
  · intro t kept
    have hpressure : s.countNonHost.pressure.p = s.pressure.p := rfl
    obtain ⟨g, hg, hgrant⟩ := captureGrant_found (s := s.countNonHost) hchoice hset hpage ho hd hothers hall hl hlen hauto
      hrole hprim (by omega)
    have hfault := sourceFault_captureFound (s := s.countNonHost) (o := o) hc hg hmark hlist
      (fun q hqp hq => (hleft q hqp hq).2) hsec hlow
    have hsettle := settle_captureFound (s := s.countNonHost) hrunning hstill hc hfault
    have hevent := event_settles_alert (f := fun t => t.countNonHost.captureGrant []) hready
      ((congrArg State.settle hgrant).trans hsettle) (still_captureFailed (s := s.countNonHost) hstill hc)
      ((endsAs_captureFailed s.countNonHost).trans (countNonHost_endsAs s))
    rw [captureFailed_eq (s := s.countNonHost) hc,
      show s.countNonHost.journal.ended = _ from Journal.ended_eq s.journal] at hevent
    refine ⟨_, fun q => ?_, congrArg Host.Outcome.next hevent⟩
    have hpage := page_captureFound (s := s.countNonHost) (o := o) hg
    refine (page_captureOver_of_set (s := s.countNonHost.captureFound g p o) hc (fun x hx => ?_) q).trans ?_
    · rw [hpage] at hx ⊢
      dsimp only
      split_ifs
      · nofun
      · exact hset x hx
    · rw [hpage]
      rfl

end Sys2Proof.Machine
end

section
/-! The restore write of a page restore (R115 to R117): the record's values, and the journal replayed over them. -/

namespace Sys2Proof.Machine

/-! ### The journal's records of a page, replayed in sequence order (R116, R121) -/

section Replay

variable {s : State} {p : Nat}

/-- A journal record gives the cell at offset `o` of page `p` a value. -/
def JournalRecord.gives (p o : Nat) (r : JournalRecord) : Bool :=
  decide (r.page = p) && decide (r.offset ≤ o) && decide (o < r.offset + r.values.length)

/-- The value that the newest of the records gives the cell at offset `o` of page `p`. -/
def newestGiven (p : Nat) (rs : List JournalRecord) (o : Nat) : Option Word :=
  (rs.reverse.find? (JournalRecord.gives p o)).bind (fun r => r.values[o - r.offset]?)

theorem JournalRecord.gives_iff {o : Nat} {r : JournalRecord} :
    r.gives p o = true ↔ r.page = p ∧ r.offset ≤ o ∧ o < r.offset + r.values.length := by
  simp [JournalRecord.gives, and_assoc]

/-- A later record goes before the first one; where none gives the cell a value, the first one may. -/
theorem newestGiven_cons (r : JournalRecord) (rs : List JournalRecord) (o : Nat) :
    newestGiven p (r :: rs) o =
      (newestGiven p rs o).or (if r.gives p o = true then r.values[o - r.offset]? else none) := by
  simp only [newestGiven, List.reverse_cons, List.find?_append]
  cases hfind : rs.reverse.find? (JournalRecord.gives p o) with
  | none => by_cases hr : r.gives p o = true <;> simp [hr]
  | some x =>
    obtain ⟨-, hle, hlt⟩ := JournalRecord.gives_iff.mp (List.find?_some hfind)
    have hx : x.values[o - x.offset]? = some (x.values[o - x.offset]'(by omega)) := List.getElem?_eq_getElem _
    simp [hx]

theorem replayOver_eq_setImage (s : State) (p : Nat) (rs : List JournalRecord) :
    replayOver s p rs = s.setImage (replayOver s p rs).image := by
  induction rs generalizing s with
  | nil => rfl
  | cons r rs ih =>
    rw [replayOver]
    split_ifs
    · rw [writeRun_eq s, ih]
      rfl
    · exact ih s

/-- A cell outside the page is left alone, for its records stay inside it. -/
theorem cell_replayOver_outside {rs : List JournalRecord} (hin : ∀ r ∈ rs, r.page = p → r.offset + r.values.length ≤ 64)
    {b : Nat} (hb : b / 64 ≠ p) : (replayOver s p rs).cell b = s.cell b := by
  induction rs generalizing s with
  | nil => rfl
  | cons r rs ih =>
    have hrest := fun x hx => hin x (List.mem_cons_of_mem r hx)
    rw [replayOver]
    split_ifs with hr
    · have hlen := hin r List.mem_cons_self hr
      rw [ih hrest, cell_writeRun, dif_neg (by unfold cellAddr; omega)]
    · exact ih hrest

/-- A cell of the page holds the newest value the records give it, and is as it was where they give none. -/
theorem cell_replayOver_inside {rs : List JournalRecord} {b : Nat} (hb : b / 64 = p) :
    (replayOver s p rs).cell b =
      ((newestGiven p rs (b % 64)).map fun v => ({ value := v, damage := .intact } : StoredCell)).getD (s.cell b) := by
  induction rs generalizing s with
  | nil => rfl
  | cons r rs ih =>
    rw [replayOver, newestGiven_cons]
    split_ifs with hr hg hg
    · obtain ⟨-, hle, hlt⟩ := JournalRecord.gives_iff.mp hg
      have hat : b - cellAddr p r.offset = b % 64 - r.offset := by unfold cellAddr; omega
      rw [ih, cell_writeRun, dif_pos (by unfold cellAddr; omega), List.getElem?_eq_getElem (by omega)]
      simp only [hat]
      cases newestGiven p rs (b % 64) <;> rfl
    · have hout : ¬ (cellAddr p r.offset ≤ b ∧ b < cellAddr p r.offset + r.values.length) := fun h => by
        unfold cellAddr at h
        exact hg (JournalRecord.gives_iff.mpr ⟨hr, by omega, by omega⟩)
      rw [ih, cell_writeRun, dif_neg hout, Option.or_none]
    · exact absurd (JournalRecord.gives_iff.mp hg).1 hr
    · rw [ih, Option.or_none]

end Replay

/-! ### A page written from its record (R116, R121) -/

section Written

variable {s : State} {p : Nat} {slot : SlotId} {g : Option Word} {cells : List Word}

/-- The records that a restore of page `p` from a slot and generation replays: the journal's, where the page is journalled and the
journal covers the slot. -/
def State.replays (s : State) (p : Nat) (slot : SlotId) (g : Option Word) : List JournalRecord :=
  if s.isJournalled p = true ∧ s.journal.covers slot g = true then s.journal.records else []

/-- The image once a restore has written page `p`. -/
def State.restoredImage (s : State) (p : Nat) (slot : SlotId) (g : Option Word) (cells : List Word) :
    List (Nat × Option StoredCell) :=
  (replayOver (s.writeRun (cellAddr p 0) cells) p (s.replays p slot g)).image

theorem replayOver_writeRun (rs : List JournalRecord) (h : rs = s.replays p slot g) :
    replayOver (s.writeRun (cellAddr p 0) cells) p rs = s.setImage (s.restoredImage p slot g cells) := by
  rw [State.restoredImage, ← h, replayOver_eq_setImage, writeRun_eq s]
  rfl

/-- The cells of the page hold the record's values and over them the newest replayed ones; every other cell is as it was. -/
theorem cell_restoredImage (hlen : cells.length = 64)
    (hin : ∀ r ∈ s.journal.records, r.page = p → r.offset + r.values.length ≤ 64) (b : Nat) :
    (s.setImage (s.restoredImage p slot g cells)).cell b =
      if b / 64 = p then
        { value :=
            if s.isJournalled p = true ∧ s.journal.covers slot g = true then
              (newestGiven p s.journal.records (b % 64)).getD (cells.getD (b % 64) 0)
            else cells.getD (b % 64) 0
          damage := .intact }
      else s.cell b := by
  rw [← replayOver_writeRun _ rfl]
  have hin' : ∀ r ∈ s.replays p slot g, r.page = p → r.offset + r.values.length ≤ 64 := fun r hr => by
    rw [State.replays] at hr
    split_ifs at hr
    · exact hin r hr
    · exact absurd hr List.not_mem_nil
  by_cases hb : b / 64 = p
  · have hrecord : (s.writeRun (cellAddr p 0) cells).cell b = { value := cells.getD (b % 64) 0, damage := .intact } := by
      have hat : b - cellAddr p 0 = b % 64 := by unfold cellAddr; omega
      rw [cell_writeRun, dif_pos (by unfold cellAddr; omega), List.getD_eq_getElem _ _ (by omega)]
      simp only [hat]
    rw [if_pos hb, cell_replayOver_inside hb, hrecord, State.replays]
    split_ifs
    · cases newestGiven p s.journal.records (b % 64) <;> rfl
    · rfl
  · rw [if_neg hb, cell_replayOver_outside hin' hb, cell_writeRun, dif_neg (by unfold cellAddr; omega)]

/-- The record of a page that a restore leaves in state `st`. -/
def PageRec.restored (st : PageState) (r : PageRec) : PageRec := { r with state := st, suspectAll := false }

/-- The restore engine without an operation. -/
def State.restoreOver (s : State) : State := s.setRest { s.rest with op := .none }

/-- The state once a page restore has written its page and left it in state `st`. -/
def State.pageRestored (s : State) (p : Nat) (slot : SlotId) (g : Option Word) (cells : List Word) (st : PageState) :
    State :=
  (s.restoreOver.setImage (s.restoreOver.restoredImage p slot g cells)).leaveRestored p st

theorem pageRestored_of_replay {rs : List JournalRecord} (st : PageState) (h : rs = s.replays p slot g) :
    (replayOver (s.restoreOver.writeRun (cellAddr p 0) cells) p rs).leaveRestored p st =
      s.pageRestored p slot g cells st := by
  rw [replayOver_writeRun (s := s.restoreOver) rs h]
  rfl

/-- The grant of a page restore whose slot is still the active one, by the table of R116. -/
theorem pageRestoreGrant_eq (hactive : s.ckpt.active = some slot) (hgen : (s.ckpt.slot slot).generation = g)
    (hck : s.isCheckpointed p = true) :
    s.pageRestoreGrant p slot g cells =
      if s.isJournalled p = true ∧ s.journal.covers slot g = false ∧ (s.page p).dirty = true then
        s.failPageRestore p (some slot) .noJournal
      else s.pageRestored p slot g cells
        (if s.isJournalled p = false ∧ (s.page p).dirty = true then .stale else .sound) := by
  have hsame : ¬ (slot ≠ slot ∨ (s.ckpt.slot slot).generation ≠ g) := fun h => h.elim (· rfl) (· hgen)
  unfold State.pageRestoreGrant
  rw [hactive]
  dsimp only
  rw [hck, if_neg (by decide), if_neg hsame]
  cases hj : s.isJournalled p with
  | false =>
    have hnone : [] = s.replays p slot g := by simp [State.replays, hj]
    cases hd : (s.page p).dirty with
    | false => exact pageRestored_of_replay .sound hnone
    | true => exact pageRestored_of_replay .stale hnone
  | true =>
    cases hc : s.journal.covers slot g with
    | true =>
      have hall : s.journal.records = s.replays p slot g := by simp [State.replays, hj, hc]
      exact pageRestored_of_replay .sound hall
    | false =>
      have hnone : [] = s.replays p slot g := by simp [State.replays, hc]
      cases hd : (s.page p).dirty with
      | false => exact pageRestored_of_replay .sound hnone
      | true => rfl

theorem exec_pageRestoreWrite (hop : s.rest.op = .page p slot g (some cells)) (hpick : s.pick = some .restoreWrite) :
    exec .pageRestoreWrite s = .next (s.event State.pageWriteNext) :=
  if_pos ⟨by simp only [State.pageRestores, hop], hpick⟩

theorem pageWriteNext_eq (hop : s.rest.op = .page p slot g (some cells)) :
    s.pageWriteNext = s.countNonHost.pageRestoreGrant p slot g cells := by
  simp only [State.pageWriteNext, hop]

end Written

/-- Settles O48: the grant writes by the table, or fails the restore, and nothing follows it in its event. -/
theorem pageRestoreWritesByTheTable : Obligations.PageRestoreWritesByTheTable := by
  intro s slot p g cells hstill hready hflight hop hlist hpick hactive hgen hck hlen _ hin journalled covers dirty newest value
  let st : PageState := if journalled = false ∧ dirty = true then .stale else .sound
  have hgrant : s.pageWriteNext =
      if journalled = true ∧ covers = false ∧ dirty = true then s.countNonHost.failPageRestore p (some slot) .noJournal
      else s.countNonHost.pageRestored p slot g cells st :=
    (pageWriteNext_eq hop).trans (pageRestoreGrant_eq (s := s.countNonHost) hactive hgen hck)
  refine ⟨fun hwrites => ?_, fun hj hc hd hprim hlow => ?_⟩
  · rw [if_neg hwrites] at hgrant
    have hover : (s.countNonHost.pageRestored p slot g cells st).still :=
      still_of_blocks hstill hflight rfl rfl rfl rfl rfl (.inr hlist)
    have hset : PageRec.restored st (s.page p) ≠ PageRec.fresh := fun hfresh => by
      have hst : st = .unset := congrArg PageRec.state hfresh
      simp only [st] at hst
      split_ifs at hst
    refine ⟨s.countNonHost.restoreOver.restoredImage p slot g cells, (s.mapPage p (PageRec.restored st)).pages,
      cell_restoredImage (s := s.countNonHost.restoreOver) hlen hin, onlyPage_mapPage hset, ?_⟩
    rw [exec_pageRestoreWrite hop hpick]
    refine congrArg Host.Outcome.next (event_settles_same hready ?_ hover ⟨rfl, rfl, rfl, rfl, rfl⟩ rfl)
    rw [hgrant]
    exact settle_of_still hover
  · rw [if_pos ⟨hj, hc, hd⟩, failPageRestore_eq (s := s.countNonHost) ⟨hprim, hlow⟩] at hgrant
    have hfailed : (s.countNonHost.pageRestoreLost p (some slot) .noJournal).still :=
      still_of_blocks hstill hflight rfl rfl rfl rfl rfl (.inr hlist)
    refine ⟨(s.mapPage p PageRec.unrestored).pages, onlyPage_mapPage (by simp [PageRec.unrestored, PageRec.fresh]), ?_⟩
    rw [exec_pageRestoreWrite hop hpick]
    refine congrArg Host.Outcome.next (event_settles_alert hready ?_ hfailed ⟨rfl, rfl, rfl, rfl, rfl⟩)
    rw [hgrant]
    exact settle_of_still hfailed

end Sys2Proof.Machine
end

section
/-! RESTORE IMAGE: its checks, and the reads and writes of its pages up to the result (R119 to R122). -/

namespace Sys2Proof.Machine

/-! ### How an image restore goes on (R121, R122) -/

section Progress

variable {s t : State} {i j : ImageRestore} {p q : Nat} {rest : List Nat} {why : Reason}

/-- The result that an image restore leaves when it ends (R122). -/
def ImageRestore.result (i : ImageRestore) : ImageResult :=
  { slot := i.slot, generation := i.generation, cycle := i.cycle, replay := i.replay, done := i.done, failed := i.failed
    firstFailed := i.firstFailed }

/-- The image restore `i` is in hand and its read of page `q` in progress. -/
def State.imageReads (s : State) (i : ImageRestore) (q : Nat) : State :=
  { s with rest := { s.rest with op := .image i }, ctl := { s.ctl with op := some (.readPage true i.slot q) } }

/-- The image restore is over, and its result stands. -/
def State.imageOver (s : State) (i : ImageRestore) : State :=
  s.setRest { s.rest with op := .none, last := some i.result }

/-- The image restore is over with a page that failed: RESTORE_FAILED is raised, with its frame. -/
def State.imageLost (s : State) (i : ImageRestore) (q : Nat) (why : Reason) : State :=
  ((s.imageOver i).raised .restoreFailed 32).framed
    (.transfer .restoreFailed .imageRestore (some q) (some i.slot) 0 why)

/-- The next page is asked for, where the controller is free. -/
theorem imageGoesOn_reads (htodo : i.todo = q :: rest) (hq : (s.page q).state = .restoring) (hctl : s.ctl.op = none) :
    s.imageGoesOn i = s.imageReads { i with cells := none } q := by
  have hnext : i.todo.dropWhile (fun x => (s.page x).state != .restoring) = q :: rest := by
    rw [htodo, List.dropWhile_cons_of_neg (by simp [hq])]
  have hask := ask_of_free (s := s.setRest { s.rest with op := .image { i with todo := q :: rest, cells := none } })
    (o := .readPage true i.slot q) hctl nofun
  unfold State.imageGoesOn
  rw [hnext]
  refine hask.trans ?_
  rw [← htodo]
  rfl

theorem imageGoesOn_ends (htodo : i.todo = []) : s.imageGoesOn i = s.endImage i := by
  unfold State.imageGoesOn
  rw [htodo]
  rfl

theorem endImage_sound (h : i.firstFailed = none) : s.endImage i = s.imageOver i := by
  unfold State.endImage
  rw [h]
  dsimp only
  rw [← h]
  rfl

theorem endImage_failed (h : i.firstFailed = some (q, why)) (hroom : s.roomFor 32) :
    s.endImage i = s.imageLost i q why := by
  obtain ⟨hprim, hlow⟩ := hroom
  have hraise : (s.imageOver i).raise .restoreFailed 32 = (s.imageOver i).raised .restoreFailed 32 := raise_low hlow
  have hframe := placeFrame_empty (s := (s.imageOver i).raised .restoreFailed 32)
    (.transfer .restoreFailed .imageRestore (some q) (some i.slot) 0 why) hprim
  rw [State.imageLost, ← hframe, ← hraise]
  unfold State.endImage State.imageOver ImageRestore.result
  rw [h]
  rfl

/-- A page fails: it is SUSPECT and counted, and the first one that failed is noted with its reason. -/
theorem imageFails_eq (htodo : i.todo = p :: rest) :
    s.imageFails i p why = (s.mapPage p PageRec.unrestored).imageGoesOn
      { i with todo := rest, failed := i.failed + 1, firstFailed := some (i.firstFailed.getD (p, why)) } := by
  unfold State.imageFails
  rw [htodo]
  cases i.firstFailed <;> rfl

/-! An event in which the image restore goes on from a still part `t`. -/

variable {f : State → State} (hready : s.ready) (hf : f s = t.imageGoesOn j) (ht : t.still) (hends : t.EndsAs s)
include hready hf ht hends

theorem event_imageGoesOn_reads (ha : t.alertCond = s.alertCond) (htodo : j.todo = q :: rest)
    (hq : (t.page q).state = .restoring) (hctl : t.ctl.op = none) :
    s.event f = t.imageReads { j with cells := none } q := by
  have hstill : (t.imageReads { j with cells := none } q).still := by
    obtain ⟨hclose, -, hblocks⟩ := ht
    exact ⟨hclose, .inl RestoreOp.noConfusion, hblocks⟩
  obtain ⟨hphase, hlink, hnotes, hpins, hpermit⟩ := hends
  refine event_settles_same hready ?_ hstill ⟨hphase, hlink, hnotes, hpins, hpermit⟩ ha
  rw [hf, imageGoesOn_reads htodo hq hctl]
  exact settle_of_still hstill

theorem event_imageGoesOn_over (ha : t.alertCond = s.alertCond) (htodo : j.todo = []) (hlist : t.rest.list = [])
    (hfail : j.firstFailed = none) : s.event f = t.imageOver j := by
  have hstill : (t.imageOver j).still := by
    obtain ⟨hclose, -, hblocks⟩ := ht
    exact ⟨hclose, .inr hlist, hblocks⟩
  obtain ⟨hphase, hlink, hnotes, hpins, hpermit⟩ := hends
  refine event_settles_same hready ?_ hstill ⟨hphase, hlink, hnotes, hpins, hpermit⟩ ha
  rw [hf, imageGoesOn_ends htodo, endImage_sound hfail]
  exact settle_of_still hstill

theorem event_imageGoesOn_lost (htodo : j.todo = []) (hlist : t.rest.list = []) (hfail : j.firstFailed = some (q, why))
    (hroom : t.roomFor 32) : s.event f = (t.imageLost j q why).withAlert := by
  have hstill : (t.imageLost j q why).still := by
    obtain ⟨hclose, -, hblocks⟩ := ht
    exact ⟨hclose, .inr hlist, hblocks⟩
  obtain ⟨hphase, hlink, hnotes, hpins, hpermit⟩ := hends
  refine event_settles_alert hready ?_ hstill ⟨hphase, hlink, hnotes, hpins, hpermit⟩
  rw [hf, imageGoesOn_ends htodo, endImage_failed hfail hroom]
  exact settle_of_still hstill

end Progress

/-! ### RESTORE IMAGE (R119, R120) -/

section Asked

variable {s : State} {r : Request} {slot : SlotId} {p : Nat} {rest : List Nat}

theorem onRestoreImage_away (h : ¬ (s.lane.state = .standby ∨ s.lane.state = .excluded ∨ s.lane.state = .halted)) :
    s.working.onRestoreImage r = s.working.refuse .restoreImage r.tag .wrongState := by
  obtain ⟨hstandby, hrest⟩ := not_or.mp h
  exact if_pos ⟨hstandby, not_or.mp hrest⟩

/-- In its lanes the request is refused for want of a checkpoint or of a free engine, or begins its plan. -/
theorem onRestoreImage_home (h : s.lane.state = .standby ∨ s.lane.state = .excluded ∨ s.lane.state = .halted) :
    s.working.onRestoreImage r =
      match s.ckpt.active with
      | none => s.working.refuse .restoreImage r.tag .noCheckpoint
      | some slot =>
        if s.rest.op ≠ .none ∨ s.xfer.role ≠ .none ∨ s.inFlight = true then
          s.working.refuse .restoreImage r.tag .engineBusy
        else
          let i := s.imagePlan slot
          let t := beginRestores i.todo s.working
          ((t.setRest { t.rest with list := t.rest.list.filter (fun q => !s.isCheckpointed q) }).imageGoesOn i).answer
            .restoreImage r.tag .accepted (.restoreImage slot i.generation i.cycle i.replay) := by
  refine if_neg fun ⟨hstandby, hexcluded, hhalted⟩ => ?_
  exact h.elim hstandby (·.elim hexcluded hhalted)

theorem execRestoreImage_refused {st : Status} (hstill : s.still) (hs : s.serves .restoreImage r)
    (hd : s.working.onRestoreImage r = s.working.refuse .restoreImage r.tag st) (hst : st ≠ .starting) :
    exec (.restoreImage r) s = .next (s.replying .restoreImage r.tag st .empty) :=
  congrArg Host.Outcome.next (event_refused (ups := []) hs hstill hd hst)

/-- The state with the page table `g`, and no suspect cell in the pages `ps`. -/
def State.restoresBegun (s : State) (g : List (Nat × PageRec)) (ps : List Nat) : State :=
  { s with pages := g, suspects := s.suspects.filter (fun a => decide (a / 64 ∉ ps)) }

/-- A restore begins for every listed page, and for no other. -/
theorem beginRestores_eq (hrole : s.xfer.role = .none) (ps : List Nat) :
    ∃ g, beginRestores ps s = s.restoresBegun g ps ∧
      ∀ q, (s.setPages g).page q = if q ∈ ps then (s.page q).restoring else s.page q := by
  induction ps generalizing s with
  | nil =>
    refine ⟨s.pages, ?_, fun q => rfl⟩
    simp only [beginRestores, State.restoresBegun, List.not_mem_nil, not_false_eq_true, decide_true, List.filter_true]
  | cons p ps ih =>
    have hone : s.onlyPage (s.mapPage p PageRec.restoring).pages p PageRec.restoring :=
      onlyPage_mapPage (by simp [PageRec.restoring, PageRec.fresh])
    obtain ⟨g, hg, hpages⟩ := ih (s := s.beginRestore p) (by rw [beginRestore_eq hrole]; exact hrole)
    rw [beginRestore_eq hrole] at hg hpages
    refine ⟨g, ?_, fun q => (hpages q).trans ?_⟩
    · rw [beginRestores, beginRestore_eq hrole, hg]
      simp only [State.restoresBegun, List.filter_filter, List.mem_cons, not_or, Bool.decide_and, Bool.and_comm]
    · rw [show State.page { s with
        pages := (s.mapPage p PageRec.restoring).pages
        suspects := s.suspects.filter (fun a => decide (a / 64 ≠ p)) } q = _ from hone q]
      by_cases hq : q = p <;> by_cases hmem : q ∈ ps <;> simp [hq, hmem, PageRec.restoring]

/-- The state once an image restore has begun over a slot: every checkpointed page is RESTORING and off both lists, and the read
of page `p` is in progress. -/
def State.imageBegun (s : State) (slot : SlotId) (g : List (Nat × PageRec)) (p : Nat) : State :=
  ((s.restoresBegun g s.checkpointedPages).setRest
    { s.rest with list := s.rest.list.filter (fun q => decide (s.isCheckpointed q = false)) }).imageReads (s.imagePlan slot) p

/-- An accepted RESTORE IMAGE. -/
theorem onRestoreImage_begins (hhome : s.lane.state = .standby ∨ s.lane.state = .excluded ∨ s.lane.state = .halted)
    (hactive : s.ckpt.active = some slot)
    (hidle : ¬ (s.rest.op ≠ .none ∨ s.xfer.role ≠ .none ∨ s.inFlight = true)) (hctl : s.ctl.op = none)
    (hpages : s.checkpointedPages = p :: rest) :
    ∃ g, (∀ q, (s.setPages g).page q = if q ∈ s.checkpointedPages then (s.page q).restoring else s.page q) ∧
      s.working.onRestoreImage r = (s.imageBegun slot g p).working.answer .restoreImage r.tag .accepted
        (.restoreImage slot (s.imagePlan slot).generation (s.imagePlan slot).cycle (s.imagePlan slot).replay) := by
  have hrole : s.xfer.role = .none := by
    by_contra hrole
    exact hidle (.inr (.inl hrole))
  obtain ⟨g, hbegun, hg⟩ := beginRestores_eq (s := s.working) hrole s.checkpointedPages
  refine ⟨g, hg, ?_⟩
  have hfilter : s.rest.list.filter (fun q => !s.isCheckpointed q) =
      s.rest.list.filter (fun q => decide (s.isCheckpointed q = false)) :=
    List.filter_congr fun q _ => by cases s.isCheckpointed q <;> rfl
  have hrestoring : ((s.working.restoresBegun g s.checkpointedPages).page p).state = .restoring :=
    congrArg PageRec.state ((hg p).trans (if_pos (by rw [hpages]; exact List.mem_cons_self)))
  have hnext := imageGoesOn_reads (i := s.imagePlan slot) (q := p) (rest := rest)
    (s := (s.working.restoresBegun g s.checkpointedPages).setRest
      { s.rest with list := s.rest.list.filter (fun q => !s.isCheckpointed q) })
    hpages hrestoring hctl
  rw [onRestoreImage_home hhome, hactive]
  dsimp only
  rw [if_neg hidle, show (s.imagePlan slot).todo = s.checkpointedPages from rfl, hbegun]
  refine congrArg (State.answer · .restoreImage r.tag .accepted _) (hnext.trans ?_)
  rw [hfilter]
  rfl

theorem execRestoreImage_begins (hstill : s.still) (hs : s.serves .restoreImage r)
    (hhome : s.lane.state = .standby ∨ s.lane.state = .excluded ∨ s.lane.state = .halted)
    (hactive : s.ckpt.active = some slot)
    (hidle : ¬ (s.rest.op ≠ .none ∨ s.xfer.role ≠ .none ∨ s.inFlight = true)) (hctl : s.ctl.op = none)
    (hpages : s.checkpointedPages = p :: rest) :
    ∃ g, (∀ q, (s.setPages g).page q = if q ∈ s.checkpointedPages then (s.page q).restoring else s.page q) ∧
      exec (.restoreImage r) s = .next ((s.imageBegun slot g p).replying .restoreImage r.tag .accepted
        (.restoreImage slot (s.imagePlan slot).generation (s.imagePlan slot).cycle (s.imagePlan slot).replay)) := by
  obtain ⟨g, hg, hd⟩ := onRestoreImage_begins (r := r) hhome hactive hidle hctl hpages
  have ⟨_, _, hj, h2, _⟩ := hs
  have hflight : s.inFlight = false := by
    rw [← Bool.not_eq_true]
    exact fun h => hidle (.inr (.inr h))
  have hbegun : (s.imageBegun slot g p).still :=
    still_of_blocks hstill hflight rfl rfl rfl rfl rfl (.inl RestoreOp.noConfusion)
  exact ⟨g, hg, congrArg Host.Outcome.next (event_reply_same (ups := []) (u := (s.imageBegun slot g p).working) hs hd rfl hj
    h2 rfl (by decide) (still_setLink.mpr hbegun) rfl rfl rfl rfl)⟩

end Asked

/-! ### The reads and writes of an image restore (R121) -/

section Pages

variable {s : State} {i : ImageRestore} {p : Nat} {rest : List Nat} {cells : List Word} {why : Reason}

theorem exec_imageRestoreReadDone {slot : SlotId} {lost : Bool} (hop : s.ctl.op = some (.readPage true slot p)) :
    exec (.imageRestoreReadDone lost) s = .next (s.event (fun t => t.imageReadDone slot p lost)) := by
  change execImageRestoreReadDone lost s = _
  simp only [execImageRestoreReadDone, hop]

/-- The controller without an operation. -/
def State.ctlFree (s : State) : State := s.setCtl { s.ctl with op := none }

/-- The end of the read of the page whose turn it is, with nothing at the controller behind it. -/
theorem imageReadDone_eq (hop : s.rest.op = .image i) (htodo : i.todo = p :: rest) (hcells : i.cells = none)
    (hpage : (s.page p).state = .restoring) (hw : s.ctl.waiting = []) (hs : s.ctl.suspended = none) :
    s.imageReadDone i.slot p false =
      match placeResult p ((s.array.slot i.slot).place p) with
      | .ok cells => s.ctlFree.setRest { s.rest with op := .image { i with cells := some cells } }
      | .error why => s.ctlFree.imageFails i p why := by
  have hended : s.opEnded = s.ctlFree := opEnded_of_alone hw hs
  unfold State.imageReadDone
  rw [losePlace_kept rfl, hended]
  dsimp only
  rw [show s.ctlFree.rest.op = .image i from hop]
  dsimp only
  rw [htodo, hcells]
  exact (if_pos ⟨rfl, rfl⟩).trans (if_neg (not_not.mpr hpage))

/-- A place without a record of the page gives no values. -/
theorem placeResult_error {x : Place}
    (h : x = .erased ∧ why = .notCaptured ∨ x = .checkFailure ∧ why = .array ∨
      (∃ q cells, q ≠ p ∧ x = .record q cells) ∧ why = .array) : placeResult p x = .error why := by
  rcases h with ⟨rfl, rfl⟩ | ⟨rfl, rfl⟩ | ⟨⟨q, cells, hq, rfl⟩, rfl⟩
  · rfl
  · rfl
  · exact if_neg hq

/-- A record of the page is kept for the restore write. -/
theorem exec_imageRestoreReadDone_keeps (hstill : s.still) (hready : s.ready) (hop : s.rest.op = .image i)
    (htodo : i.todo = p :: rest) (hcells : i.cells = none) (hpage : (s.page p).state = .restoring) (hw : s.ctl.waiting = [])
    (hs : s.ctl.suspended = none) (hctl : s.ctl.op = some (.readPage true i.slot p))
    (hplace : (s.array.slot i.slot).place p = .record p cells) :
    exec (.imageRestoreReadDone false) s =
      .next (s.ctlFree.setRest { s.rest with op := .image { i with cells := some cells } }) := by
  have hdone := imageReadDone_eq hop htodo hcells hpage hw hs
  rw [hplace, show placeResult p (.record p cells) = .ok cells from if_pos rfl] at hdone
  have hkept : (s.ctlFree.setRest { s.rest with op := .image { i with cells := some cells } }).still := by
    obtain ⟨hclose, -, hblocks⟩ := hstill
    exact ⟨hclose, .inl RestoreOp.noConfusion, hblocks⟩
  rw [exec_imageRestoreReadDone hctl]
  refine congrArg Host.Outcome.next (event_settles_same hready ?_ hkept ⟨rfl, rfl, rfl, rfl, rfl⟩ rfl)
  rw [hdone]
  exact settle_of_still hkept

/-- A read that gives none fails the page, and the restore goes on. -/
theorem imageReadDone_fails (hop : s.rest.op = .image i) (htodo : i.todo = p :: rest) (hcells : i.cells = none)
    (hpage : (s.page p).state = .restoring) (hw : s.ctl.waiting = []) (hs : s.ctl.suspended = none)
    (hres : placeResult p ((s.array.slot i.slot).place p) = .error why) :
    s.imageReadDone i.slot p false = (s.ctlFree.mapPage p PageRec.unrestored).imageGoesOn
      { i with todo := rest, failed := i.failed + 1, firstFailed := some (i.firstFailed.getD (p, why)) } := by
  have hdone := imageReadDone_eq hop htodo hcells hpage hw hs
  rw [hres] at hdone
  exact hdone.trans (imageFails_eq htodo)

/-- A change of the image, the pages and the controller, with the image restore still in hand, leaves the part still. -/
theorem still_of_imageInHand {u : State} (hstill : s.still) (hflight : s.inFlight = false) (hop : s.rest.op = .image i)
    (hlane : u.lane = s.lane) (hcomm : u.comm = s.comm) (hqueue : u.queue = s.queue) (hxfer : u.xfer = s.xfer)
    (hckpt : u.ckpt = s.ckpt) (hrest : u.rest = s.rest) : u.still := by
  refine still_of_blocks hstill hflight (congrArg LaneUnit.close hlane) hcomm hqueue hxfer hckpt (.inl ?_)
  rw [hrest, hop]
  exact RestoreOp.noConfusion

/-- The record of a page that an image restore has written. -/
def PageRec.reloaded (r : PageRec) : PageRec := { r with state := .sound, suspectAll := false, dirty := false }

/-- The state once an image restore has written page `p`. -/
def State.imageWritten (s : State) (p : Nat) (i : ImageRestore) (cells : List Word) : State :=
  (s.setImage (s.restoredImage p i.slot i.generation cells)).mapPage p PageRec.reloaded

theorem exec_imageRestoreWrite (hop : s.rest.op = .image i) (hpick : s.pick = some .restoreWrite) :
    exec .imageRestoreWrite s = .next (s.event State.imageWriteNext) :=
  if_pos ⟨by simp only [State.imageRuns, hop], hpick⟩

/-- The restore-write grant writes the page whose turn it is, counts it and goes on. -/
theorem imageRestoreGrant_eq (htodo : i.todo = p :: rest) (hpage : (s.page p).state = .restoring) :
    s.imageRestoreGrant i cells = (s.imageWritten p i cells).imageGoesOn { i with todo := rest, done := i.done + 1 } := by
  have hwritten : (if s.isJournalled p && s.journal.covers i.slot i.generation then
        replayOver (s.writeRun (cellAddr p 0) cells) p s.journal.records
      else s.writeRun (cellAddr p 0) cells) = s.setImage (s.restoredImage p i.slot i.generation cells) := by
    split_ifs with h
    · exact replayOver_writeRun _ (by rw [State.replays, if_pos (by simpa using h)])
    · exact replayOver_writeRun [] (by rw [State.replays, if_neg (by simpa using h)])
  unfold State.imageRestoreGrant
  rw [htodo]
  dsimp only
  rw [if_neg (not_not.mpr hpage), hwritten]
  rfl

theorem imageWriteNext_eq (hop : s.rest.op = .image i) (hcells : i.cells = some cells) :
    s.imageWriteNext = s.countNonHost.imageRestoreGrant i cells := by
  simp only [State.imageWriteNext, hop, hcells]

end Pages

/-- Settles O49: the checks by their order, then every page's read and write, each of which goes on to the next page or ends. -/
theorem restoreImageTakesEveryCheckpointedPage : Obligations.RestoreImageTakesEveryCheckpointedPage := by
  intro s r hstill
  refine ⟨fun hs => ?_, fun i p rest hready hop htodo hpage hw hsus => ⟨fun cells hcells hctl hplace => ?_,
    fun why hcells hctl hflight hlist hwhy => ?_, fun cells hcells hlen hpick hflight hlist hin => ?_⟩⟩
  · intro home busy
    refine ⟨fun haway => ?_, fun hhome hnone => ?_, fun hhome hsome hbusy => ?_,
      fun slot p rest hhome hactive hidle hctl hpages => ?_⟩
    · exact execRestoreImage_refused hstill hs (onRestoreImage_away haway) (by decide)
    · refine execRestoreImage_refused hstill hs ((onRestoreImage_home hhome).trans ?_) (by decide)
      rw [hnone]
    · obtain ⟨slot, hslot⟩ := Option.ne_none_iff_exists'.mp hsome
      refine execRestoreImage_refused hstill hs ((onRestoreImage_home hhome).trans ?_) (by decide)
      rw [hslot]
      exact if_pos hbusy
    · intro e covers
      obtain ⟨g, hg, hexec⟩ := execRestoreImage_begins hstill hs hhome hactive hidle hctl hpages
      refine ⟨g, hg, hexec.trans ?_⟩
      rw [State.imageBegun, State.imagePlan, hpages]
      rfl
  · exact exec_imageRestoreReadDone_keeps hstill hready hop htodo hcells hpage hw hsus hctl hplace
  · have hgoes := imageReadDone_fails hop htodo hcells hpage hw hsus (placeResult_error hwhy)
    have hover : (s.ctlFree.mapPage p PageRec.unrestored).still :=
      still_of_imageInHand hstill hflight hop rfl rfl rfl rfl rfl rfl
    refine ⟨(s.mapPage p PageRec.unrestored).pages, onlyPage_mapPage (by simp [PageRec.unrestored, PageRec.fresh]), ?_⟩
    intro first
    rw [exec_imageRestoreReadDone hctl]
    refine ⟨fun q later hrest hq hnext => congrArg Host.Outcome.next ?_, fun hrest hroom => congrArg Host.Outcome.next ?_⟩
    · rw [event_imageGoesOn_reads hready hgoes hover ⟨rfl, rfl, rfl, rfl, rfl⟩ rfl hrest
        ((congrArg PageRec.state (page_putPage_other s.ctlFree _ hq)).trans hnext) rfl, ← hcells]
      rfl
    · exact event_imageGoesOn_lost (f := fun u => u.imageReadDone i.slot p false) (q := first.1) (why := first.2) hready hgoes
        hover ⟨rfl, rfl, rfl, rfl, rfl⟩ hrest hlist rfl hroom
  · intro newest value
    have hgoes := (imageWriteNext_eq hop hcells).trans
      (imageRestoreGrant_eq (s := s.countNonHost) (cells := cells) htodo hpage)
    have hover : (s.countNonHost.imageWritten p i cells).still :=
      still_of_imageInHand hstill hflight hop rfl rfl rfl rfl rfl rfl
    refine ⟨s.countNonHost.restoredImage p i.slot i.generation cells, (s.mapPage p PageRec.reloaded).pages,
      cell_restoredImage (s := s.countNonHost) hlen hin, onlyPage_mapPage (by simp [PageRec.reloaded, PageRec.fresh]), ?_⟩
    rw [exec_imageRestoreWrite hop hpick]
    refine ⟨fun q later hrest hq hnext hctl => congrArg Host.Outcome.next ?_, fun hrest => ?_⟩
    · exact event_imageGoesOn_reads hready hgoes hover ⟨rfl, rfl, rfl, rfl, rfl⟩ rfl hrest
        ((congrArg PageRec.state (page_putPage_other s.countNonHost _ hq)).trans hnext) hctl
    · intro ended
      refine ⟨fun hfail => congrArg Host.Outcome.next ?_, fun q why hfail hroom => congrArg Host.Outcome.next ?_⟩
      · exact event_imageGoesOn_over hready hgoes hover ⟨rfl, rfl, rfl, rfl, rfl⟩ rfl hrest hlist hfail
      · exact event_imageGoesOn_lost hready hgoes hover ⟨rfl, rfl, rfl, rfl, rfl⟩ hrest hlist hfail hroom

end Sys2Proof.Machine
end

section
/-! The transfer engine within an event: what a taken frame, the end of a reception and the end of a donation make of the part, and
how its blocks then settle (R69, R130, R131, R135, R137, R138). -/

namespace Sys2Proof.Machine

/-! ### What a ready and a still state give -/

theorem withdrawn_of_ready {s : State} (h : s.ready) : s.notes.withdrawn = false :=
  have ⟨_, ⟨_, _, _, hwithdrawn⟩, _⟩ := h
  hwithdrawn

theorem alert_of_ready {s : State} (h : s.ready) : s.pins.alert = s.alertCond :=
  have ⟨_, ⟨⟨_, halert, _⟩, _⟩, _⟩ := h
  halert

theorem checkStands_of_still {s : State} (h : s.still) : s.checkStands = true :=
  have ⟨_, _, _, _, hcheck, _⟩ := h
  hcheck

theorem running_of_takesFrame {s : State} {n : Nat} {code : Byte} {f : RxFrame} (h : s.takesFrame n code f) :
    s.phase = .running :=
  have ⟨⟨hrun, _⟩, _⟩ := h
  hrun

/-! ### What an event of the transfer engine sets off -/

section Blocks

variable {s t u : State} {x : Transfer} {l : LaneUnit}

/-- A checkpoint that stands goes on with nothing. -/
theorem capture_blocks_of_stands (h : s.flightStands = true) : s.sourceFault.passUnset.nextProgram = s := by
  cases hc : s.ckpt.state with
  | idle => exact capture_blocks_of_no_flight (by simp [State.inFlight, hc])
  | erasing => exact capture_blocks_of_no_flight (by simp [State.inFlight, hc])
  | finishing =>
    have hsource : s.uncapturedPages.any s.unrestorable = false := by simpa [State.flightStands, hc] using h
    have hnot : s.ckpt.state ≠ .capturing := by simp [hc]
    have hpass : s.passUnset = s := if_neg fun hx => hnot hx.1
    have hprogram : s.nextProgram = s := if_neg fun hx => hnot hx.1
    rw [sourceFault_of_none hsource, hpass, hprogram]
  | capturing =>
    obtain ⟨hsource, hpass⟩ := flightStands_capturing hc h
    have hprogram : s.nextProgram = s := by
      refine ite_eq_right_iff.mpr fun ⟨_, hbegun, hasked⟩ => ?_
      simp only [State.flightStands, hc, hbegun, hasked, Bool.and_eq_true, Bool.not_true, Bool.false_or, beq_iff_eq,
        bne_iff_ne] at h
      obtain ⟨-, hbuf, hleft⟩ := h
      simp only [hbuf, if_neg hleft]
    rw [sourceFault_of_none hsource, passUnset_of_some hpass, hprogram]

/-- Whether a close is about to sign is not the transfer engine's concern. -/
theorem beginClosePass_setXfer (h : s.closeStands = true) (x : Transfer) : (s.setXfer x).beginClosePass = s.setXfer x := by
  unfold State.beginClosePass
  simp only [State.setXfer_lane, State.setXfer_queue]
  cases hc : s.lane.close with
  | none => rfl
  | some c =>
    refine if_neg fun ⟨hdrain, hall⟩ => ?_
    simp only [State.closeStands, hc, hdrain, bne_self_eq_false, Bool.false_or, Bool.and_eq_true] at h
    obtain ⟨e, he, hcl⟩ := List.any_eq_true.mp h.1
    have hopen := List.all_eq_true.mp hall e he
    simp [hcl] at hopen

/-- A still part whose transfer engine has changed settles into what that engine's own blocks make of it. -/
theorem settle_of_engine (h : s.still) (hrun : s.phase = .running)
    (hblocks : (s.setXfer x).passTest.sendFinal.beginCheck = u) (hu : u.still) : (s.setXfer x).settle = u := by
  obtain ⟨hclose, hrest, hflight, -⟩ := h
  obtain ⟨-, -, -, -, -, hurun, herase⟩ := hu
  rw [State.settle, if_pos (show (s.setXfer x).phase = .running from hrun), State.settleBlocks, beginClosePass_setXfer hclose,
    restoresTake_of_stands (s := s.setXfer x) hrest, capture_blocks_of_stands (s := s.setXfer x) hflight, hblocks,
    updateRun_of_runStands hurun, startPreErase_of_stands herase]

/-- Where the test of the plan leaves the part still, that is all. -/
theorem settle_of_plan (h : s.still) (hrun : s.phase = .running) (hpass : (s.setXfer x).passTest = u) (hu : u.still) :
    (s.setXfer x).settle = u := by
  have ⟨hclose, _⟩ := hu
  exact settle_of_engine h hrun
    (by rw [hpass, sendFinal_of_stands hclose, beginCheck_of_stands (checkStands_of_still hu)]) hu

/-- A still part stands still behind a change of the transfer engine and the lane that leaves its close, its donation and its join
check standing. -/
theorem still_transfer (h : s.still) (hclose : ((s.setXfer x).setLane l).closeStands = true)
    (hdonor : ((s.setXfer x).setLane l).donorStands = true) (hcheck : ((s.setXfer x).setLane l).checkStands = true) :
    ((s.setXfer x).setLane l).still := by
  obtain ⟨-, hrest, hflight, -, -, hrun, herase⟩ := h
  exact ⟨hclose, hrest, hflight, hdonor, hcheck, hrun, herase⟩

/-- With the role none only a close about to sign could set anything off. -/
theorem still_freed (h : s.still) : s.freed.still := by
  refine still_transfer (x := Transfer.fresh) (l := s.freed.lane) h ?_ rfl rfl
  have hclose := h.1
  unfold State.closeStands at hclose ⊢
  change (match s.lane.close with | none => true | some c => _) = true
  cases hc : s.lane.close with
  | none => rfl
  | some c =>
    simp only [hc, Bool.and_eq_true] at hclose
    obtain ⟨hdrain, -⟩ := hclose
    exact Bool.and_eq_true_iff.mpr ⟨hdrain, by simp [Transfer.fresh]⟩

end Blocks

/-! ### The lane moved by an event (R70) -/

/-- An event that settles into a moved lane, and answers nothing: the STATE frames go out. -/
theorem event_settles_moved {s w : State} {f : State → State} (hready : s.ready)
    (hf : (f s).settle = (w.setNotes Notes.ofMove).settle) (hw : w.still) (he : w.EndsAs s) :
    s.event f = (w.handBoth (.state w.lane.state w.lane.lastClosed)).withAlert := by
  obtain ⟨-, ⟨hlines, hquiet⟩, hreads⟩ := hready
  have hmoved : (w.setNotes Notes.ofMove).still := hw
  rw [event_of_settle (hf.trans (settle_of_still hmoved)) (settled_of_still hmoved) (he.readsDone hreads),
    closeEvent_of_moved (he.quiet hquiet), drivePins_handBoth, he.drivePins_eq hlines, ← withAlert_handBoth]

/-! ### The end of a reception (R137) -/

section Reception

variable {s t w : State} {f : State → State} {page : Option Nat} {why : Reason}

theorem endReception_stays {abort : Bool} (hroom : s.roomFor 16) (hl : s.lane.state ≠ .joining)
    (ht : (if abort then s.handPartner (.joinAbort why) else s) = t) :
    s.endReception abort page why = t.receptionOver page why := by
  rw [endReception_eq page why hroom, if_neg hl, ht]

/-- Out of JOINING the lane goes back to STANDBY, and a STATE frame is owed. -/
theorem endReception_joining {abort : Bool} (hroom : s.roomFor 16) (hl : s.lane.state = .joining)
    (ht : (if abort then s.handPartner (.joinAbort why) else s) = t) (hstate : t.lane.state = .joining)
    (hn : t.notes.withdrawn = false) :
    s.endReception abort page why = ((t.receptionOver page why).rested .standby).setNotes Notes.ofMove := by
  have hstate' : (t.receptionOver page why).lane.state = .joining := hstate
  rw [endReception_eq page why hroom, if_pos hl, ht]
  exact moveLane_eq_rested (by rw [hstate']; decide) (by rw [hstate']; decide) (by decide) hn

theorem receptionOver_still (h : w.still) : (w.receptionOver page why).still :=
  have hfreed : w.freed.still := still_freed h
  hfreed

/-- An event that settles into the end of a reception, the lane staying where it is. -/
theorem event_receptionOver (hready : s.ready) (hf : (f s).settle = (w.receptionOver page why).settle) (hw : w.still)
    (he : w.EndsAs s) : s.event f = (w.receptionOver page why).withAlert := by
  have hstill : (w.receptionOver page why).still := receptionOver_still hw
  exact event_settles_alert hready (hf.trans (settle_of_still hstill)) hstill ((State.EndsAs.receptionOver w page why).trans he)

/-- An event that settles into the end of a reception in JOINING: the STATE frames go out. -/
theorem event_backToStandby (hready : s.ready)
    (hf : (f s).settle = (((w.receptionOver page why).rested .standby).setNotes Notes.ofMove).settle) (hw : w.still)
    (he : w.EndsAs s) (hl : w.lane.state = .joining) :
    s.event f = (w.receptionOver page why).backToStandby.withAlert := by
  have hstill : ((w.receptionOver page why).rested .standby).still :=
    still_rested (receptionOver_still hw) .standby
  have hstate : (w.receptionOver page why).lane.state ≠ .active := by
    rw [show (w.receptionOver page why).lane.state = .joining from hl]
    decide
  have hends := (State.EndsAs.rested hstate (by decide : LaneState.standby ≠ .active)).trans
    ((State.EndsAs.receptionOver w page why).trans he)
  exact event_settles_moved hready hf hstill hends

end Reception

/-! ### A frame that is taken (R69) -/

/-- The event of a frame that passes every test is what taking it makes of the part. -/
theorem frameEvent_eq_event {s : State} {n : Nat} {code : Byte} {f : RxFrame} (h : s.takesFrame n code f)
    (take : State → State) : s.frameEvent code f take = s.event (fun _ => take (s.heard f.port)) := by
  obtain ⟨hready, hlane, hcheck, hlen, hfrom⟩ := h
  have hverdict : verdict n code f = .taken := by
    simp [verdict, ← hcheck, ← hfrom, hlen]
  have hrec : s.receive code f take = take (s.heard f.port) := by
    simp only [State.receive]
    rw [show (s.setTaking f.port false).laneNumber = some n from hlane]
    exact if_pos hverdict
  rw [State.frameEvent, if_pos hready.1]
  simp only [State.event, hrec]

end Sys2Proof.Machine
end

section
/-! JOIN, and the ends of a join before the donor has sent everything (R125, R127, R134, R137). -/

namespace Sys2Proof.Machine

/-! ### JOIN (R125) -/

section Join

variable {s : State} {r : Request} {l : Byte}

/-- A part asks the lane `l` to donate. -/
def State.askingOf (s : State) (l : Nat) (p : PortId) : State :=
  (s.setXfer { s.xfer with role := .receiver .asking, partner := some (l, p), idle := true }).mapPeer p
    (fun x => { x with relation := .donor })

theorem onJoin_working (hb : r.body = [l]) :
    s.working.onJoin r =
      match s.joinRefusal l.toNat with
      | some st => s.working.refuse .join r.tag st
      | none =>
        (((s.askingOf l.toNat (s.portFacing l.toNat)).hand (s.portFacing l.toNat) .joinAsk).working).refuse .join r.tag
          .accepted := by
  have hport : s.working.portFacing l.toNat = s.portFacing l.toNat := rfl
  have hrefusal : s.working.joinRefusal l.toNat = s.joinRefusal l.toNat := rfl
  unfold State.onJoin
  simp only [hb, oneByte, hrefusal, hport]
  cases s.joinRefusal l.toNat with
  | some st => rfl
  | none =>
    rw [← hand_working]
    rfl

theorem execJoin_refused {st : Status} (hs : s.serves .join r) (hb : r.body = [l]) (h : s.joinRefusal l.toNat = some st)
    (hst : st ≠ .starting) : exec (.join r) s = .next (s.replying .join r.tag st .empty) := by
  have hd : s.working.dispatch .join r [] = s.working.answer .join r.tag st .empty := by
    refine (onJoin_working hb).trans ?_
    rw [h]
    rfl
  exact congrArg Host.Outcome.next (plain_reply_same (u := s.working) hs hd rfl rfl hst rfl rfl rfl rfl)

theorem execJoin_accepted {p : PortId} (hs : s.serves .join r) (hb : r.body = [l]) (h : s.joinRefusal l.toNat = none)
    (hp : s.portFacing l.toNat = p) :
    exec (.join r) s = .next (((s.askingOf l.toNat p).hand p .joinAsk).replying .join r.tag .accepted .empty) := by
  have hd : s.working.dispatch .join r [] =
      ((s.askingOf l.toNat p).hand p .joinAsk).working.answer .join r.tag .accepted .empty := by
    refine (onJoin_working hb).trans ?_
    rw [h, hp]
    rfl
  have hpermit : (s.askingOf l.toNat p).permitCond = s.permitCond := by cases p <;> rfl
  have hends : ((s.askingOf l.toNat p).hand p .joinAsk).EndsAs s :=
    (hand_endsAs _ _ _).trans ⟨rfl, rfl, rfl, rfl, hpermit⟩
  refine congrArg Host.Outcome.next (plain_reply_same (u := ((s.askingOf l.toNat p).hand p .joinAsk).working) hs hd rfl
    hends.notes (by decide) hends.pins hends.permit hends.phase ?_)
  rw [hand_eq]
  rfl

/-- The port that faces a lane of the wiring rule (R68). -/
theorem portFacing_eq {n : Nat} {p : PortId} (hn : s.laneNumber = some n) (h : expectedLane n p = l.toNat) :
    s.portFacing l.toNat = p := by
  unfold State.portFacing State.laneOn
  rw [hn, ← h]
  cases p with
  | one => exact if_pos rfl
  | two =>
    refine if_neg fun heq => ?_
    have hsame : n % 3 + 1 = (n + 1) % 3 + 1 := Option.some.inj heq
    omega

theorem imageRuns_iff : s.imageRuns = true ↔ ∃ i, s.rest.op = .image i := by
  unfold State.imageRuns
  cases s.rest.op <;> simp

end Join

/-! ### The ends (R127, R134, R137) -/

section Ends

variable {s : State} {n d : Nat} {f : RxFrame} {b : Byte}

theorem exec_joinIdleTimeout (hidle : s.xfer.idle = true) :
    exec .joinIdleTimeout s = .next (s.event (fun t => t.endReception true none .timeout)) := if_pos hidle

theorem takeJoinRefuse_eq (hr : s.xfer.role = .receiver .asking) (hp : s.xfer.partner = some (d, f.port)) (hb : f.body = [b]) :
    s.takeJoinRefuse f = s.endReception false none (Reason.ofCode b) := by
  unfold State.takeJoinRefuse reasonOf
  rw [if_pos ⟨hr, fromPartner_of hp⟩, hb]
  rfl

theorem takeJoinAbort_receiver (hr : s.xfer.role = .receiver .receiving) (hp : s.xfer.partner = some (d, f.port))
    (hb : f.body = [b]) : s.takeJoinAbort f = s.endReception false none (Reason.ofCode b) := by
  unfold State.takeJoinAbort reasonOf
  rw [if_pos (fromPartner_of hp), hr, hb]
  rfl

end Ends

/-- Settles O50: JOIN by the order of its checks; then each end of a join, by the lane state it finds. -/
theorem joinIsCheckedAsksAndFails : Obligations.JoinIsCheckedAsksAndFails := by
  intro s r l n f
  refine ⟨fun hs hb => ?_, fun d p hstill hready hp hidle hroom => ?_, fun hidle => if_neg (by simp [hidle]),
    fun d b hstill hp hb hroom => ?_⟩
  · intro home named busy
    have hnamed : named → ¬ (l.toNat < 1 ∨ 3 < l.toNat ∨ s.laneNumber = some l.toNat) := fun ⟨h1, h3, hown⟩ => by
      rintro (h | h | h)
      · omega
      · omega
      · exact hown h
    have hhome : home → ¬ (s.lane.state ≠ .standby ∧ s.lane.state ≠ .excluded) := fun h => by
      rintro ⟨hs, he⟩
      exact h.elim hs he
    have hclose : s.lane.close = none → ¬ s.lane.close.isSome = true := fun h => by simp [h]
    have hbusy : busy ↔ (s.xfer.role ≠ .none ∨ s.imageRuns = true ∨ s.inFlight = true) := by rw [imageRuns_iff]
    refine ⟨fun hn => ?_, fun hn hh => ?_, fun hn hh hc => ?_, fun hn hh hc hbz => ?_, fun hn hh hc hbz hpr => ?_,
      fun p hn hh hc hbz hpr hlane hp => ?_⟩
    · refine execJoin_refused hs hb (if_pos ?_) (by decide)
      by_contra hnot
      simp only [not_or, Nat.not_lt] at hnot
      exact hn hnot
    · refine execJoin_refused hs hb ((if_neg (hnamed hn)).trans (if_pos ?_)) (by decide)
      exact not_or.mp hh
    · refine execJoin_refused hs hb ((if_neg (hnamed hn)).trans ((if_neg (hhome hh)).trans (if_pos ?_))) (by decide)
      exact Option.isSome_iff_ne_none.mpr hc
    · exact execJoin_refused hs hb ((if_neg (hnamed hn)).trans ((if_neg (hhome hh)).trans ((if_neg (hclose hc)).trans
        (if_pos (hbusy.mp hbz))))) (by decide)
    · exact execJoin_refused hs hb ((if_neg (hnamed hn)).trans ((if_neg (hhome hh)).trans ((if_neg (hclose hc)).trans
        ((if_neg (mt hbusy.mpr hbz)).trans (if_pos hpr))))) (by decide)
    · exact execJoin_accepted hs hb ((if_neg (hnamed hn)).trans ((if_neg (hhome hh)).trans ((if_neg (hclose hc)).trans
        ((if_neg (mt hbusy.mpr hbz)).trans (if_neg (Nat.not_le.mpr hpr)))))) (portFacing_eq hlane hp)
  · have hhand := handPartner_eq hp (.joinAbort .timeout)
    have hends := hand_endsAs s p (.joinAbort .timeout)
    have hstate : (s.hand p (.joinAbort .timeout)).lane = s.lane := by rw [hand_eq]; rfl
    have hwithdrawn : (s.hand p (.joinAbort .timeout)).notes.withdrawn = false :=
      hends.notes ▸ withdrawn_of_ready hready
    refine ⟨fun _ hl => ?_, fun _ hl => ?_⟩ <;> rw [exec_joinIdleTimeout hidle] <;> refine congrArg Host.Outcome.next ?_
    · exact event_receptionOver hready (congrArg State.settle (endReception_stays hroom hl hhand)) (still_hand hstill _ _) hends
    · exact event_backToStandby hready
        (congrArg State.settle (endReception_joining hroom hl hhand (by rw [hstate]; exact hl) hwithdrawn))
        (still_hand hstill _ _) hends (by rw [hstate]; exact hl)
  · refine ⟨fun h hr hl => ?_, fun h hr hl => ?_⟩ <;> refine congrArg Host.Outcome.next ((frameEvent_eq_event h _).trans ?_)
    · exact event_receptionOver h.1 (congrArg State.settle
        ((takeJoinRefuse_eq (s := s.heard f.port) hr hp hb).trans (endReception_stays (s := s.heard f.port) hroom hl rfl)))
        (heard_still hstill f.port) (.heard s f.port)
    · exact event_backToStandby h.1 (congrArg State.settle
        ((takeJoinAbort_receiver (s := s.heard f.port) hr hp hb).trans
          (endReception_joining (s := s.heard f.port) hroom hl rfl hl (withdrawn_of_ready h.1))))
        (heard_still hstill f.port) (.heard s f.port) hl

end Sys2Proof.Machine
end

section
/-! JOIN-FINAL and the check of what has been received (R135 to R137). -/

namespace Sys2Proof.Machine

/-! ### The received set -/

section Received

variable {s : State} {p : Nat}

theorem missingPage_none (h : ∀ q, q < 256 → s.isSigned q = true → q ∈ s.xfer.received) : s.missingPage = none := by
  simp only [State.missingPage, List.find?_eq_none, State.signedPages, List.mem_filter, List.mem_range]
  exact fun q ⟨hq, hs⟩ => by simp [h q hq hs]

theorem missingPage_lowest (hp : p < 256) (hs : s.isSigned p = true) (hr : p ∉ s.xfer.received)
    (hlow : ∀ q, q < p → s.isSigned q = true → q ∈ s.xfer.received) : s.missingPage = some p :=
  find?_range_filter hp hs (by simp [hr]) fun q hq hqs => by simp [hlow q hq hqs]

end Received

/-! ### JOIN-FINAL (R135) -/

section Final

variable {s : State} {n d : Nat} {f : RxFrame} {x : Transfer} {c : Half} {g : Word}

/-- The engine once a JOIN-FINAL has been taken. -/
def Transfer.checking (x : Transfer) (final : Option (Half × Word)) : Transfer :=
  { x with role := .receiver .checking, final := final, idle := false, checkBegun := false }

theorem takeJoinFinal_eq (hr : s.xfer.role = .receiver .receiving) (hp : s.xfer.partner = some (d, f.port)) :
    s.takeJoinFinal f = s.setXfer (s.xfer.checking (finalArgs f.body)) := if_pos ⟨hr, fromPartner_of hp⟩

/-- A receiver stands still once it waits for its inbound list or has begun its check. -/
theorem still_checking (h : s.still) (hrole : x.role = .receiver .checking) (hc : x.checkBegun = true ∨ x.inbound ≠ []) :
    (s.setXfer x).still := by
  refine still_transfer (x := x) (l := s.lane) h ?_ ?_ ?_
  · have hclose := h.1
    unfold State.closeStands at hclose ⊢
    simp only [State.setLane_lane, State.setLane_queue, State.setLane_xfer, State.setXfer_xfer, State.setXfer_queue, hrole]
    cases hc : s.lane.close with
    | none => rfl
    | some c =>
      simp only [hc, Bool.and_eq_true] at hclose
      obtain ⟨hdrain, -⟩ := hclose
      exact Bool.and_eq_true_iff.mpr ⟨hdrain, by simp⟩
  · simp [State.donorStands, hrole]
  · rcases hc with hc | hc <;> simp [State.checkStands, hc]

/-- Nothing of the donor's side is a receiver's concern. -/
theorem donor_blocks_of_receiver (hrole : s.xfer.role ≠ .donor) : s.passTest.sendFinal = s := by
  have hpass : s.passTest = s := if_neg fun h => hrole h.1
  rw [hpass]
  unfold State.sendFinal
  split
  · rfl
  · exact if_neg fun h => hrole h.2.1

/-- The check of a JOIN-FINAL: with the inbound list empty it begins, or ends the join for a missing page. -/
theorem beginCheck_eq (hrole : s.xfer.role = .receiver .checking) (hfinal : s.xfer.final = some (c, g))
    (hbegun : s.xfer.checkBegun = false) (hin : s.xfer.inbound = []) :
    s.beginCheck =
      match s.missingPage with
      | some p => s.endReception false (some p) .missingPages
      | none =>
        if s.signPlan = [] then ((s.setXfer { s.xfer with checkBegun := true }).beginSigning c).finishCheck
        else (s.setXfer { s.xfer with checkBegun := true }).beginSigning c := by
  unfold State.beginCheck
  simp only [hfinal]
  exact if_pos ⟨hrole, by simp [hbegun], hin⟩

variable (hstill : s.still) (h : s.takesFrame n 9 f) (hr : s.xfer.role = .receiver .receiving)
  (hp : s.xfer.partner = some (d, f.port))
include hstill h hr hp

omit hstill in
theorem exec_joinFinal :
    exec (.joinFinal f) s =
      .next (s.event (fun _ => (s.heard f.port).setXfer (s.xfer.checking (finalArgs f.body)))) := by
  have htake := takeJoinFinal_eq (s := s.heard f.port) hr hp
  exact congrArg Host.Outcome.next ((frameEvent_eq_event h _).trans (congrArg (fun t => s.event (fun _ => t)) htake))

/-- Frames that wait are written first. -/
theorem exec_joinFinal_waits (hin : s.xfer.inbound ≠ []) :
    exec (.joinFinal f) s = .next ((s.heard f.port).setXfer (s.xfer.checking (finalArgs f.body))) := by
  have hnext : ((s.heard f.port).setXfer (s.xfer.checking (finalArgs f.body))).still :=
    still_checking (heard_still hstill f.port) rfl (.inr hin)
  rw [exec_joinFinal h hr hp]
  exact congrArg Host.Outcome.next (event_settles_same h.1 (settle_of_still hnext) hnext
    ((State.EndsAs.setXfer _ _).trans (.heard s f.port)) rfl)

variable (hin : s.xfer.inbound = []) (hfinal : finalArgs f.body = some (c, g))
include hin hfinal

omit hstill h hr hp in
theorem beginCheck_of_joinFinal :
    ((s.heard f.port).setXfer (s.xfer.checking (finalArgs f.body))).passTest.sendFinal.beginCheck =
      match s.missingPage with
      | some p => ((s.heard f.port).setXfer (s.xfer.checking (finalArgs f.body))).endReception false (some p) .missingPages
      | none =>
        let t := ((s.heard f.port).setXfer { s.xfer.checking (finalArgs f.body) with checkBegun := true }).beginSigning c
        if s.signPlan = [] then t.finishCheck else t := by
  rw [donor_blocks_of_receiver (by simp [Transfer.checking])]
  exact beginCheck_eq (s := (s.heard f.port).setXfer (s.xfer.checking (finalArgs f.body))) rfl hfinal rfl hin

/-- With every signed page received the check begins. -/
theorem exec_joinFinal_begins (hall : s.missingPage = none) (hplan : s.signPlan ≠ []) :
    exec (.joinFinal f) s =
      .next (((s.heard f.port).setXfer { s.xfer.checking (finalArgs f.body) with checkBegun := true }).beginSigning c) := by
  have hnext : ((s.heard f.port).setXfer { s.xfer.checking (finalArgs f.body) with checkBegun := true }).still :=
    still_checking (heard_still hstill f.port) rfl (.inl rfl)
  have hbegin := beginCheck_of_joinFinal hin hfinal
  rw [hall] at hbegin
  have hsettle := settle_of_engine (heard_still hstill f.port) (running_of_takesFrame h) (hbegin.trans (if_neg hplan)) hnext
  rw [exec_joinFinal h hr hp]
  exact congrArg Host.Outcome.next (event_settles_same h.1 hsettle hnext
    ⟨rfl, rfl, rfl, rfl, rfl⟩ rfl)

/-- A signed page that has not been received ends the join. -/
theorem exec_joinFinal_lacks {p : Nat} (hl : s.lane.state = .joining) (hroom : s.roomFor 16)
    (hmiss : s.missingPage = some p) :
    exec (.joinFinal f) s =
      .next ((s.heard f.port).receptionOver (some p) .missingPages).backToStandby.withAlert := by
  have hbegin := beginCheck_of_joinFinal hin hfinal
  rw [hmiss] at hbegin
  have hend := endReception_joining (s := (s.heard f.port).setXfer (s.xfer.checking (finalArgs f.body)))
    (page := some p) (why := .missingPages) (abort := false) hroom hl rfl hl (withdrawn_of_ready h.1)
  have hover : (((s.heard f.port).receptionOver (some p) .missingPages).rested .standby).still :=
    still_rested (receptionOver_still (heard_still hstill f.port)) .standby
  have hmoved : ((((s.heard f.port).receptionOver (some p) .missingPages).rested .standby).setNotes Notes.ofMove).still := hover
  have hsettle := settle_of_engine (heard_still hstill f.port) (running_of_takesFrame h) (hbegin.trans hend) hmoved
  rw [exec_joinFinal h hr hp]
  exact congrArg Host.Outcome.next (event_backToStandby h.1 (hsettle.trans (settle_of_still hmoved).symm)
    (heard_still hstill f.port) (.heard s f.port) hl)

end Final

/-! ### The grants of the check (R135, R136) -/

section Check

variable {s t : State} {d : Nat} {c : Half} {g : Word} {st : SignStep} {rest : List SignStep} {p : Nat}

/-- What the check of a sound page gives. -/
theorem pageScan_sound (h : ∀ o, o < 64 → (s.cell (p * 64 + o)).damage = .intact) :
    (s.pageScan p).1 = s ∧ (s.pageScan p).2.bad = [] ∧ (s.pageScan p).2.corrected = 0 ∧
      (s.pageScan p).2.values = s.pageValues p := by
  have htwo : ∀ o, o < 64 → (s.cell (p * 64 + o)).damage ≠ .twoBits := fun o ho => by simp [h o ho]
  have hone : ∀ o, o < 64 → (s.cell (p * 64 + o)).damage ≠ .oneBit := fun o ho => by simp [h o ho]
  obtain ⟨hvalues, hbad⟩ := pageScan_readable htwo
  have hcorr := (pageScan_counts s p).1
  rw [offsetsWith_nil hone] at hcorr
  exact ⟨pageScan_state hone, hbad, hcorr, hvalues⟩

theorem joinCheckPage_sound (hf : s.xfer.final = some (c, g)) (ht : s.sign.todo = st :: rest)
    (hr : s.readable st.page = true) (h : ∀ o, o < 64 → (s.cell (st.page * 64 + o)).damage = .intact) :
    s.joinCheckPage [] =
      if rest = [] then (s.setSign (s.fedSign c st rest (s.pageValues st.page))).finishCheck
      else s.setSign (s.fedSign c st rest (s.pageValues st.page)) := by
  obtain ⟨hstate, hbad, hcorr, hvalues⟩ := pageScan_sound h
  have hfeed : ((s.pageScan st.page).1.feedPage c st (s.pageScan st.page).2.values).raiseCorrected
      (s.pageScan st.page).2.corrected = s.setSign (s.fedSign c st rest (s.pageValues st.page)) := by
    rw [hstate, hcorr, hvalues, feedPage_eq ht]
    rfl
  unfold State.joinCheckPage
  simp only [hf, ht, hr, if_true]
  exact (if_pos hbad).trans (congrArg (fun t : State => if rest = [] then t.finishCheck else t) hfeed)

/-- A lane that did not vote becomes ACTIVE, with its permit mark clear and a STATE frame owed (R70, R85, R89). -/
theorem moveLane_active (hv : voting s.lane.state = false) (hp : s.pressure.p < 768) (hn : s.notes.withdrawn = false) :
    s.moveLane .active = (s.setLane { s.lane with state := .active, permitMark := false }).setNotes Notes.ofMove := by
  have hne : s.lane.state ≠ .active := fun h => by simp [h, voting] at hv
  have hvote : voting .active = true := rfl
  have hnotes : ({ s.notes with moved := true } : Notes) = Notes.ofMove := by rw [Notes.ofMove, ← hn]
  have hshift : s.shiftLane .active =
      (s.setLane { s.lane with state := .active, permitMark := false }).setNotes Notes.ofMove := by
    unfold State.shiftLane
    simp only [hne, hv, hvote, Bool.false_and, Bool.false_eq_true, if_false, if_true, or_true, false_and, hnotes]
    rfl
  unfold State.moveLane
  rw [if_neg hne, hshift]
  exact if_neg fun h => Nat.not_le.mpr hp h.2

/-- The part once a join has completed (R136). -/
def State.joined (s : State) (c : Half) : State :=
  (s.freed.setJournal { s.journal with state := .broken, records := [], base := none }).setLane
    { s.freed.lane with state := .active, lastClosed := c, abstain := 0, permitMark := false }

theorem joinCompletes_eq (hl : s.lane.state = .joining) (hp : s.pressure.p < 768) (hn : s.notes.withdrawn = false) :
    s.joinCompletes c = (s.joined c).setNotes Notes.ofMove := by
  have hv : voting s.lane.state = false := by rw [hl]; rfl
  have hmove := moveLane_active
    (s := (s.freed.setJournal { s.journal with state := .broken, records := [], base := none }).setLane
      { s.freed.lane with lastClosed := c, abstain := 0 }) hv hp hn
  exact hmove

/-- The end of a check whose pages have all been fed. -/
theorem finishCheck_eq (hf : s.xfer.final = some (c, g)) (hall : s.missingPage = none) :
    s.finishCheck =
      if s.ownSignature c = g then s.joinCompletes c else s.endReception false none .mismatch := by
  simp only [State.finishCheck, hf, hall]

theorem exec_joinCheckGrant (hwaits : s.joinCheckWaits = true) (hpass : s.passWaits = false)
    (hpick : s.pick = some .signature) :
    exec (.joinCheckGrant []) s = .next (s.event (fun t => t.countNonHost.joinCheckPage [])) :=
  if_pos ⟨hwaits, by simp [hpass], hpick⟩

variable (hstill : s.still) (hready : s.ready) (hwaits : s.joinCheckWaits = true) (hpass : s.passWaits = false)
  (hpick : s.pick = some .signature)
include hstill hready hwaits hpass hpick

/-- A grant that feeds a page before the last. -/
theorem exec_joinCheckGrant_feeds {x : SignUnit} (hg : s.countNonHost.joinCheckPage [] = s.countNonHost.setSign x) :
    exec (.joinCheckGrant []) s = .next (s.countNonHost.setSign x) := by
  have hnext : (s.countNonHost.setSign x).still := hstill
  rw [exec_joinCheckGrant hwaits hpass hpick]
  exact congrArg Host.Outcome.next (event_settles_same hready
    ((congrArg State.settle hg).trans (settle_of_still hnext)) hnext ⟨rfl, rfl, rfl, rfl, rfl⟩ rfl)

variable {x : SignUnit} (hl : s.lane.state = .joining)
include hl

/-- A grant with which the join completes. -/
theorem exec_joinCheckGrant_completes (hp : s.pressure.p < 768)
    (hg : s.countNonHost.joinCheckPage [] = (s.countNonHost.setSign x).joinCompletes c) :
    exec (.joinCheckGrant []) s =
      .next (((s.countNonHost.setSign x).joined c).handBoth (.state .active c)) := by
  have hfreed : (s.countNonHost.setSign x).freed.still := still_freed (s := s.countNonHost.setSign x) hstill
  have hnext : ((s.countNonHost.setSign x).joined c).still := hfreed
  have hends : ((s.countNonHost.setSign x).joined c).EndsAs s :=
    ⟨rfl, rfl, rfl, rfl, by simp [State.permitCond, State.joined, hl]⟩
  have hset : ((s.countNonHost.setSign x).joined c).withAlert = (s.countNonHost.setSign x).joined c :=
    withAlert_of_lines (show s.pins.alert = s.alertCond from alert_of_ready hready)
  rw [joinCompletes_eq (s := s.countNonHost.setSign x) hl hp (withdrawn_of_ready hready)] at hg
  rw [exec_joinCheckGrant hwaits hpass hpick]
  refine congrArg Host.Outcome.next ((event_settles_moved hready (congrArg State.settle hg) hnext hends).trans ?_)
  rw [withAlert_handBoth, hset]
  rfl

/-- A grant with which it fails. -/
theorem exec_joinCheckGrant_fails (hroom : s.roomFor 16)
    (hg : s.countNonHost.joinCheckPage [] = (s.countNonHost.setSign x).endReception false none .mismatch) :
    exec (.joinCheckGrant []) s =
      .next ((s.countNonHost.setSign x).receptionOver none .mismatch).backToStandby.withAlert := by
  have hend := endReception_joining (s := s.countNonHost.setSign x) (page := none) (why := .mismatch) (abort := false) hroom
    hl rfl hl (withdrawn_of_ready hready)
  rw [exec_joinCheckGrant hwaits hpass hpick]
  exact congrArg Host.Outcome.next (event_backToStandby (w := s.countNonHost.setSign x) hready
    (congrArg State.settle (hg.trans hend)) hstill ⟨rfl, rfl, rfl, rfl, rfl⟩ hl)

end Check

/-- Settles O53: the JOIN-FINAL by the inbound list and the received set, the check page by page to its two ends. -/
theorem joinFinalIsCheckedByTheReceiver : Obligations.JoinFinalIsCheckedByTheReceiver := by
  intro s f n hstill hl
  refine ⟨fun d c1 c0 g3 g2 g1 g0 h hr hp hb => ?_, fun c g st rest hready hpick hwaits hpass hfinal htodo => ?_⟩
  · have hargs : finalArgs f.body = some (half c1 c0, word g3 g2 g1 g0) := by rw [hb]; rfl
    intro u x
    have hx : s.xfer.checking (finalArgs f.body) = x := by rw [hargs]; rfl
    refine ⟨fun hin => ?_, fun hin hall hplan => ?_, fun p hin hp256 hsig hmiss hlow hroom => ?_⟩
    · rw [exec_joinFinal_waits hstill h hr hp hin, hx]
      rfl
    · rw [exec_joinFinal_begins hstill h hr hp hin hargs (missingPage_none hall) hplan, hx]
      rfl
    · exact exec_joinFinal_lacks hstill h hr hp hin hargs hl hroom (missingPage_lowest hp256 hsig hmiss hlow)
  · intro p fed seed sign t hread hsound
    have hpage := joinCheckPage_sound (s := s.countNonHost) hfinal htodo (readable_iff.mpr hread) hsound
    refine ⟨fun hne => ?_, fun hlast hall => ?_⟩
    · exact exec_joinCheckGrant_feeds hstill hready hwaits hpass hpick (hpage.trans (if_neg hne))
    · have hfin := (hpage.trans (if_pos hlast)).trans
        (finishCheck_eq (s := s.countNonHost.setSign sign) hfinal (missingPage_none hall))
      refine ⟨fun heq hpr => ?_, fun hne hroom => ?_⟩
      · exact exec_joinCheckGrant_completes hstill hready hwaits hpass hpick hl hpr (hfin.trans (if_pos heq))
      · exact exec_joinCheckGrant_fails hstill hready hwaits hpass hpick hl hroom (hfin.trans (if_neg hne))

end Sys2Proof.Machine
end

section
/-! A donor's side of a join: what a transfer-out grant sends or owes, and how a donation goes on or ends (R128 to R131, R138). -/

namespace Sys2Proof.Machine

/-! ### Ordered page sets -/

theorem setAdd_ne_nil (a : Nat) (x : List Nat) : setAdd a x ≠ [] := by
  cases x with
  | nil => simp [setAdd]
  | cons b rest =>
    rw [setAdd]
    split_ifs <;> simp

theorem setUnion_ne_nil {y : List Nat} (x : List Nat) (h : y ≠ []) : setUnion x y ≠ [] := by
  induction x generalizing y with
  | nil => exact h
  | cons a x ih => exact ih (setAdd_ne_nil a y)

/-! ### The closing pass and its hold (R131) -/

section Hold

variable {s : State} {c : Close} {x : Transfer}

theorem closingPassRuns_of (hc : s.lane.close = some c) (hstage : c.stage = .closingPass) : s.closingPassRuns = true := by
  simp only [State.closingPassRuns, hc, hstage, decide_true]

/-- A close whose vote runs outlasts the release of its hold. -/
theorem releaseHold_of_running (hc : s.lane.close = some c) (hvote : c.vote = .running) :
    s.releaseHold = s.closingPassOver c := by
  rw [releaseHold_eq hc, if_pos hvote]
  rfl

theorem closingPassOver_endsAs (s : State) (c : Close) : (s.closingPassOver c).EndsAs s := ⟨rfl, rfl, rfl, rfl, rfl⟩

/-- A donor stands still while its pass has pages left, and once it has caught up. -/
theorem still_donor (h : s.still) (hrole : x.role = .donor) (hclosing : s.closingPassRuns = true → x.closing ≠ [])
    (hplan : s.closingPassRuns = true ∨ x.plan ≠ [] ∨ x.resend.length ≤ 16 ∧ x.caughtUp = true) : (s.setXfer x).still := by
  refine still_transfer (x := x) (l := s.lane) h ?_ ?_ (by simp [State.checkStands, hrole])
  · have hclose := h.1
    unfold State.closeStands at hclose ⊢
    simp only [State.setLane_lane, State.setLane_queue, State.setLane_xfer, State.setXfer_xfer, State.setXfer_queue]
    cases hc : s.lane.close with
    | none => rfl
    | some c =>
      simp only [hc, Bool.and_eq_true] at hclose
      obtain ⟨hdrain, -⟩ := hclose
      refine Bool.and_eq_true_iff.mpr ⟨hdrain, ?_⟩
      by_cases hstage : c.stage = .closingPass
      · simp [hclosing (closingPassRuns_of hc hstage)]
      · simp [hstage]
  · have hruns : ((s.setXfer x).setLane s.lane).closingPassRuns = s.closingPassRuns := rfl
    simp only [State.donorStands, hruns, State.setLane_xfer, State.setXfer_xfer, Bool.or_eq_true, Bool.and_eq_true,
      bne_iff_ne]
    rcases hplan with h | h | h
    · exact .inl (.inl (.inr h))
    · exact .inl (.inr h)
    · obtain ⟨hlen, hup⟩ := h
      exact .inr ⟨decide_eq_true hlen, hup⟩

/-- A donor whose closing pass has been abandoned begins its next pass. -/
theorem still_abandoned (h : s.still) (hrole : x.role = .donor) (hplan : x.plan ≠ []) :
    ((s.closingPassOver c).setXfer x).still :=
  still_transfer (x := x) (l := (s.closingPassOver c).lane) h (by simp [State.closeStands, State.closingPassOver])
    (by simp [State.donorStands, hplan]) (by simp [State.checkStands, hrole])

/-- A donation that has ended together with its closing pass leaves the part still. -/
theorem still_released (h : s.still) : (s.closingPassOver c).freed.still :=
  still_transfer (x := Transfer.fresh) (l := (s.closingPassOver c).freed.lane) h
    (by simp [State.closeStands, State.closingPassOver, State.freed]) rfl rfl

theorem still_released_hand (h : s.still) (q : PortId) (f : LaneFrame) :
    ((s.closingPassOver c).hand q f).freed.still := by
  have hports : (s.setPorts ((s.closingPassOver c).portsWith q f)).still := h
  have hover := still_released (c := c) hports
  rw [hand_eq]
  exact hover

end Hold

/-! ### The end of a donation (R138) -/

section Lost

variable {s w : State} {d : Nat} {q : PortId} {c : Close} {f : State → State} {abort : Option Reason} {page : Option Nat}
  {retry : Nat} {why : Reason}

/-- The part once the partner has been told the reason, where one is told. -/
def State.aborted (s : State) (abort : Option Reason) : State :=
  match abort with
  | none => s
  | some why => s.handPartner (.joinAbort why)

theorem aborted_eq_setPorts (s : State) (abort : Option Reason) : s.aborted abort = s.setPorts (s.aborted abort).ports := by
  cases abort with
  | none => rfl
  | some why => exact handPartner_eq_setPorts s _

theorem aborted_some (hp : s.xfer.partner = some (d, q)) (why : Reason) :
    s.aborted (some why) = s.hand q (.joinAbort why) := handPartner_eq hp _

theorem donationOver_cases (s : State) (abort : Option Reason) :
    s.donationOver abort =
      if s.closingPassRuns = true then (s.aborted abort).clearTransfer.releaseHold else (s.aborted abort).clearTransfer := by
  cases abort <;> rfl

/-- The fault of an ended donation and its frame. -/
theorem raised_donationLost (hroom : s.roomFor 16) :
    (s.clearTransfer.raise .joinFailed FaultKind.joinFailed.weight).placeFrame (donateFrame page retry why) =
      s.donationLost page retry why := by
  obtain ⟨hprim, hlow⟩ := hroom
  have hraise : s.clearTransfer.raise .joinFailed FaultKind.joinFailed.weight = s.freed.raised .joinFailed 16 := raise_low hlow
  rw [hraise]
  exact placeFrame_empty (s := s.freed.raised .joinFailed 16) _ hprim

theorem endDonation_free (hcp : s.closingPassRuns = false) (hroom : s.roomFor 16) :
    s.endDonation abort page retry why = (s.aborted abort).donationLost page retry why := by
  have hroom' : (s.aborted abort).roomFor 16 := by
    rw [aborted_eq_setPorts]
    exact hroom
  rw [State.endDonation, donationOver_cases, if_neg (by simp [hcp]), raised_donationLost hroom']

/-- A donation that ends during a closing pass releases its hold (R138). -/
theorem endDonation_held (hc : s.lane.close = some c) (hstage : c.stage = .closingPass) (hvote : c.vote = .running)
    (hroom : s.roomFor 16) :
    s.endDonation abort page retry why = ((s.aborted abort).closingPassOver c).donationLost page retry why := by
  have hports := aborted_eq_setPorts s abort
  have hrelease : (s.aborted abort).clearTransfer.releaseHold = ((s.aborted abort).closingPassOver c).clearTransfer := by
    rw [hports]
    exact releaseHold_of_running (s := (s.setPorts (s.aborted abort).ports).clearTransfer) hc hvote
  have hroom' : ((s.aborted abort).closingPassOver c).roomFor 16 := by
    rw [hports]
    exact hroom
  rw [State.endDonation, donationOver_cases, if_pos (closingPassRuns_of hc hstage), hrelease, raised_donationLost hroom']

theorem donationLost_still (h : w.freed.still) : (w.donationLost page retry why).still := h

/-- What the engine held is lost with its donation. -/
theorem donationLost_hand_setXfer (s : State) (x : Transfer) (q : PortId) (a : LaneFrame) :
    ((s.setXfer x).hand q a).donationLost page retry why = (s.hand q a).donationLost page retry why := by
  rw [hand_eq, hand_eq]
  rfl

/-- An event that settles into the end of a donation. -/
theorem event_donationLost (hready : s.ready) (hf : (f s).settle = (w.donationLost page retry why).settle)
    (hw : w.freed.still) (he : w.EndsAs s) : s.event f = (w.donationLost page retry why).withAlert := by
  have hstill : (w.donationLost page retry why).still := donationLost_still hw
  exact event_settles_alert hready (hf.trans (settle_of_still hstill)) hstill
    (State.EndsAs.trans (w := w) ⟨rfl, rfl, rfl, rfl, rfl⟩ he)

end Lost

/-! ### The passes of a donation (R130, R131) -/

section Passes

variable {s : State} {d : Nat} {q : PortId} {c : Close} {x : Transfer}

theorem passTest_catchesUp (hrole : s.xfer.role = .donor) (hcp : s.closingPassRuns = false) (hplan : s.xfer.plan = [])
    (hfew : s.xfer.resend.length ≤ 16) : s.passTest = s.setXfer { s.xfer with caughtUp := true } :=
  (if_pos ⟨hrole, by simp [hcp], hplan⟩).trans (if_neg (Nat.not_lt.mpr hfew))

theorem beginPass_begins (hpass : s.xfer.pass < 8) : s.beginPass = s.setXfer (s.xfer.nextPass s.xfer.resend) :=
  if_neg (Nat.not_le.mpr hpass)

/-- At the pass limit the donation ends. -/
theorem beginPass_ends (hpass : 8 ≤ s.xfer.pass) : s.beginPass = s.endDonation (some .noConverge) none 0 .noConverge :=
  if_pos hpass

theorem passTest_ends (hrole : s.xfer.role = .donor) (hcp : s.closingPassRuns = false) (hplan : s.xfer.plan = [])
    (hmany : 16 < s.xfer.resend.length) (hpass : 8 ≤ s.xfer.pass) (hp : s.xfer.partner = some (d, q)) (hroom : s.roomFor 16) :
    s.passTest = (s.hand q (.joinAbort .noConverge)).donationLost none 0 .noConverge := by
  rw [← aborted_some hp, ← endDonation_free hcp hroom, ← beginPass_ends hpass]
  exact (if_pos ⟨hrole, by simp [hcp], hplan⟩).trans (if_pos hmany)

/-- The engine with the pages of an abandoned closing pass owed again. -/
def Transfer.abandoned (x : Transfer) : Transfer := { x with resend := setUnion x.closing x.resend, closing := [] }

theorem abandonClosingPass_eq (hc : s.lane.close = some c) (hvote : c.vote = .running) :
    s.abandonClosingPass = ((s.closingPassOver c).setXfer s.xfer.abandoned).beginPass := by
  have hrelease := releaseHold_of_running (s := s.setXfer s.xfer.abandoned) hc hvote
  exact congrArg State.beginPass hrelease

end Passes

/-! ### A transfer-out grant (R128) -/

section Grant

variable {s : State} {d p : Nat} {q : PortId} {c : Close} {rest later : List Nat}

/-- The engine once its next page has been taken from the closing list or the plan. -/
def Transfer.taken (x : Transfer) (closing : Bool) : Transfer :=
  if closing then { x with closing := x.closing.tail } else { x with plan := x.plan.tail }

/-- The engine once page `p` has been sent. -/
def Transfer.sentOut (x : Transfer) (p : Nat) : Transfer := { x with sent := setAdd p x.sent, resend := setDrop p x.resend }

/-- The frame a donor sends of page `p`. -/
def State.pageFrame (s : State) (p : Nat) : LaneFrame := .page p s.xfer.pass (s.pageValues p)

theorem taken_setXfer (s : State) (closing : Bool) :
    (if closing then s.setXfer { s.xfer with closing := s.xfer.closing.tail }
      else s.setXfer { s.xfer with plan := s.xfer.plan.tail }) = s.setXfer (s.xfer.taken closing) := by
  cases closing <;> rfl

@[simp] theorem taken_partner (x : Transfer) (closing : Bool) : (x.taken closing).partner = x.partner := by
  cases closing <;> rfl

@[simp] theorem taken_pass (x : Transfer) (closing : Bool) : (x.taken closing).pass = x.pass := by
  cases closing <;> rfl

@[simp] theorem taken_resend (x : Transfer) (closing : Bool) : (x.taken closing).resend = x.resend := by
  cases closing <;> rfl

/-- A sound page goes out and joins the sent set. -/
theorem transferOutGrant_sends (htake : s.transferPage = some p) (hp : s.xfer.partner = some (d, q))
    (hr : s.readable p = true) (h : ∀ o, o < 64 → (s.cell (p * 64 + o)).damage = .intact) :
    s.transferOutGrant [] =
      (s.setPorts (s.portsWith q (s.pageFrame p))).setXfer ((s.xfer.taken s.closingPassRuns).sentOut p) := by
  obtain ⟨t, ht⟩ : ∃ t, t = s.setXfer (s.xfer.taken s.closingPassRuns) := ⟨_, rfl⟩
  obtain ⟨hstate, hbad, hcorr, hvalues⟩ := pageScan_sound (s := t) (p := p) (by rw [ht]; exact h)
  have hread : (t.page p).state = .sound ∨ (t.page p).state = .stale := by
    rw [ht]
    exact readable_iff.mp hr
  have hframe : LaneFrame.page p t.xfer.pass (t.pageValues p) = s.pageFrame p := by
    rw [ht]
    exact congrArg (fun n => LaneFrame.page p n (s.pageValues p)) (taken_pass ..)
  have hhand : t.handPartner (s.pageFrame p) =
      (s.setPorts (s.portsWith q (s.pageFrame p))).setXfer (s.xfer.taken s.closingPassRuns) := by
    rw [ht, handPartner_eq (s := s.setXfer (s.xfer.taken s.closingPassRuns)) ((taken_partner ..).trans hp), hand_eq]
    rfl
  have hsent : (t.pageScan p).1.handPartner (.page p (t.pageScan p).1.xfer.pass (t.pageScan p).2.values) =
      (s.setPorts (s.portsWith q (s.pageFrame p))).setXfer (s.xfer.taken s.closingPassRuns) := by
    rw [hstate, hvalues, hframe, hhand]
  unfold State.transferOutGrant
  simp only [htake, taken_setXfer, ← ht]
  refine (if_pos hread).trans ((if_pos hbad).trans ((if_pos hcorr).trans ?_))
  exact congrArg (fun u : State => u.setXfer (u.xfer.sentOut p)) hsent

/-- A page that cannot be read is owed. -/
theorem transferOutGrant_owes (htake : s.transferPage = some p)
    (hr : ¬ ((s.page p).state = .sound ∨ (s.page p).state = .stale)) :
    s.transferOutGrant [] =
      let t := s.setXfer ((s.xfer.taken s.closingPassRuns).owing (setAdd p s.xfer.resend))
      if s.closingPassRuns then t.abandonClosingPass else t := by
  have hresend : (s.xfer.taken s.closingPassRuns).resend = s.xfer.resend := taken_resend ..
  unfold State.transferOutGrant
  simp only [htake, taken_setXfer]
  refine (if_neg hr).trans ?_
  rw [← hresend]
  rfl

end Grant

end Sys2Proof.Machine
end

section
/-! TRANSFER_OUT, PAGE_AGAIN, JOIN_ASK and JOIN_ABORT at a donor (R126, R128 to R131, R138). -/

namespace Sys2Proof.Machine

/-! ### TRANSFER_OUT (R128, R130, R131) -/

section TransferOut

variable {s u w : State} {d p : Nat} {q : PortId} {c : Close} {g : Word} {rest later : List Nat} {page : Option Nat}
  {retry : Nat} {why : Reason}

theorem transferPage_plan (hcp : s.closingPassRuns = false) (hplan : s.xfer.plan = p :: rest) : s.transferPage = some p := by
  simp [State.transferPage, hcp, hplan]

theorem transferPage_closing (hcp : s.closingPassRuns = true) (hclosing : s.xfer.closing = p :: later) :
    s.transferPage = some p := by
  simp [State.transferPage, hcp, hclosing]

/-- The part once a grant has handed page `p` to the partner's port `q`. -/
def State.pageSent (s : State) (q : PortId) (p : Nat) : State :=
  s.countNonHost.setPorts (s.portsWith q (s.pageFrame p))

theorem pageSent_eq (s : State) (q : PortId) (p : Nat) : s.pageSent q p = s.countNonHost.hand q (s.pageFrame p) :=
  (hand_eq s.countNonHost q _).symm

theorem pageSent_still (h : s.still) (q : PortId) (p : Nat) : (s.pageSent q p).still := h

theorem pageSent_endsAs (s : State) (q : PortId) (p : Nat) : (s.pageSent q p).EndsAs s := ⟨rfl, rfl, rfl, rfl, rfl⟩

/-- The engine once page `p` of its plan has been sent, with `rest` behind it. -/
def Transfer.planSent (x : Transfer) (p : Nat) (rest : List Nat) : Transfer :=
  { x with plan := rest, sent := setAdd p x.sent, resend := setDrop p x.resend }

/-- The last page of a closing pass is followed by JOIN-FINAL and the end of the donation (R131). -/
theorem sendFinal_eq (hc : s.lane.close = some c) (hstage : c.stage = .closingPass) (hvote : c.vote = .running)
    (hsig : c.signature = some g) (hrole : s.xfer.role = .donor) (hclosing : s.xfer.closing = [])
    (hp : s.xfer.partner = some (d, q)) :
    s.sendFinal = ((s.hand q (.joinFinal c.cycle g)).freed).closingPassOver c := by
  have hrelease := releaseHold_of_running (s := (s.hand q (.joinFinal c.cycle g)).freed) (c := c)
    (by rw [hand_eq]; exact hc) hvote
  unfold State.sendFinal
  simp only [hc, hsig, Option.getD_some, handPartner_eq hp]
  exact (if_pos ⟨hstage, hrole, hclosing⟩).trans hrelease

theorem exec_transferOut_same (hready : s.ready) (hpick : s.pick = some .transferOut)
    (hset : (s.countNonHost.transferOutGrant []).settle = u) (hu : u.still) (he : u.EndsAs s)
    (ha : u.alertCond = s.alertCond) : exec (.transferOut []) s = .next u :=
  (if_pos hpick).trans (congrArg Host.Outcome.next (event_settles_same hready hset hu he ha))

theorem exec_transferOut_lost (hready : s.ready) (hpick : s.pick = some .transferOut)
    (hset : (s.countNonHost.transferOutGrant []).settle = (w.donationLost page retry why).settle) (hw : w.freed.still)
    (he : w.EndsAs s) : exec (.transferOut []) s = .next (w.donationLost page retry why).withAlert :=
  (if_pos hpick).trans (congrArg Host.Outcome.next
    (event_donationLost (f := fun t => t.countNonHost.transferOutGrant []) hready hset hw he))

variable (hstill : s.still) (hready : s.ready) (hpick : s.pick = some .transferOut) (hrole : s.xfer.role = .donor)
  (hp : s.xfer.partner = some (d, q))
include hstill hready hpick hrole hp

section Plan

variable (hcp : s.closingPassRuns = false) (hplan : s.xfer.plan = p :: rest)
include hcp hplan

omit hstill hready hpick hrole in
theorem transferOutGrant_plan (hr : s.readable p = true) (h : ∀ o, o < 64 → (s.cell (p * 64 + o)).damage = .intact) :
    s.countNonHost.transferOutGrant [] = (s.pageSent q p).setXfer (s.xfer.planSent p rest) := by
  have hgrant := transferOutGrant_sends (s := s.countNonHost) (transferPage_plan hcp hplan) hp hr h
  have hx : (s.countNonHost.xfer.taken s.countNonHost.closingPassRuns).sentOut p = s.xfer.planSent p rest := by
    rw [show s.countNonHost.closingPassRuns = false from hcp]
    exact congrArg (fun l => s.xfer.planSent p l) (congrArg List.tail hplan)
  exact hgrant.trans (congrArg (fun x => (s.pageSent q p).setXfer x) hx)

omit hp in
theorem exec_transferOut_owes (hr : ¬ ((s.page p).state = .sound ∨ (s.page p).state = .stale)) (hne : rest ≠ []) :
    exec (.transferOut []) s =
      .next (s.countNonHost.setXfer { s.xfer with plan := rest, resend := setAdd p s.xfer.resend }) := by
  have hgrant := transferOutGrant_owes (s := s.countNonHost) (transferPage_plan hcp hplan) hr
  have hnext : (s.countNonHost.setXfer { s.xfer with plan := rest, resend := setAdd p s.xfer.resend }).still :=
    still_donor (s := s.countNonHost) hstill hrole (fun h => absurd (hcp.symm.trans h) Bool.false_ne_true) (.inr (.inl hne))
  have hx : s.countNonHost.transferOutGrant [] =
      s.countNonHost.setXfer { s.xfer with plan := rest, resend := setAdd p s.xfer.resend } := by
    rw [hgrant, show s.countNonHost.closingPassRuns = false from hcp]
    exact congrArg (fun l => s.countNonHost.setXfer { s.xfer with plan := l, resend := setAdd p s.xfer.resend })
      (congrArg List.tail hplan)
  exact exec_transferOut_same hready hpick (by rw [hx]; exact settle_of_still hnext) hnext ⟨rfl, rfl, rfl, rfl, rfl⟩ rfl

variable (hr : s.readable p = true) (h : ∀ o, o < 64 → (s.cell (p * 64 + o)).damage = .intact)
include hr h

theorem exec_transferOut_sends (hne : rest ≠ []) :
    exec (.transferOut []) s = .next ((s.pageSent q p).setXfer (s.xfer.planSent p rest)) := by
  have hnext : ((s.pageSent q p).setXfer (s.xfer.planSent p rest)).still :=
    still_donor (s := s.pageSent q p) hstill hrole (fun h => absurd (hcp.symm.trans h) Bool.false_ne_true) (.inr (.inl hne))
  exact exec_transferOut_same hready hpick
    ((congrArg State.settle (transferOutGrant_plan hp hcp hplan hr h)).trans (settle_of_still hnext)) hnext
    ⟨rfl, rfl, rfl, rfl, rfl⟩ rfl

variable (hlast : rest = [])
include hlast

/-- The exhausted plan: the donor has caught up, or begins its next pass, or ends the donation. -/
theorem exec_transferOut_catchesUp (hfew : (setDrop p s.xfer.resend).length ≤ 16) :
    exec (.transferOut []) s =
      .next ((s.pageSent q p).setXfer { s.xfer.planSent p rest with caughtUp := true }) := by
  have hnext : ((s.pageSent q p).setXfer { s.xfer.planSent p rest with caughtUp := true }).still :=
    still_donor (s := s.pageSent q p) hstill hrole (fun h => absurd (hcp.symm.trans h) Bool.false_ne_true)
      (.inr (.inr ⟨hfew, rfl⟩))
  have hset := settle_of_plan (s := s.pageSent q p) (x := s.xfer.planSent p rest) hstill hready.1
    (passTest_catchesUp (s := (s.pageSent q p).setXfer (s.xfer.planSent p rest)) hrole hcp hlast hfew) hnext
  exact exec_transferOut_same hready hpick ((congrArg State.settle (transferOutGrant_plan hp hcp hplan hr h)).trans hset) hnext
    ⟨rfl, rfl, rfl, rfl, rfl⟩ rfl

variable (hmany : 16 < (setDrop p s.xfer.resend).length)
include hmany

theorem exec_transferOut_nextPass (hpass : s.xfer.pass < 8) :
    exec (.transferOut []) s =
      .next ((s.pageSent q p).setXfer ((s.xfer.planSent p rest).nextPass (setDrop p s.xfer.resend))) := by
  have hnext : ((s.pageSent q p).setXfer ((s.xfer.planSent p rest).nextPass (setDrop p s.xfer.resend))).still :=
    still_donor (s := s.pageSent q p) hstill hrole (fun h => absurd (hcp.symm.trans h) Bool.false_ne_true)
      (.inr (.inl (List.ne_nil_of_length_pos (Nat.lt_of_le_of_lt (Nat.zero_le 16) hmany))))
  have hset := settle_of_plan (s := s.pageSent q p) (x := s.xfer.planSent p rest) hstill hready.1
    (passTest_begins (s := (s.pageSent q p).setXfer (s.xfer.planSent p rest)) hrole hcp hlast hmany hpass) hnext
  exact exec_transferOut_same hready hpick ((congrArg State.settle (transferOutGrant_plan hp hcp hplan hr h)).trans hset) hnext
    ⟨rfl, rfl, rfl, rfl, rfl⟩ rfl

theorem exec_transferOut_passLimit (hpass : 8 ≤ s.xfer.pass) (hroom : s.roomFor 16) :
    exec (.transferOut []) s =
      .next (((s.pageSent q p).hand q (.joinAbort .noConverge)).donationLost none 0 .noConverge).withAlert := by
  have hfreed : ((s.pageSent q p).hand q (.joinAbort .noConverge)).freed.still :=
    still_freed (still_hand (pageSent_still hstill q p) _ _)
  have hover := donationLost_still (page := none) (retry := 0) (why := .noConverge) hfreed
  have hend := passTest_ends (s := (s.pageSent q p).setXfer (s.xfer.planSent p rest)) hrole hcp hlast hmany hpass hp hroom
  have hset := settle_of_plan (s := s.pageSent q p) (x := s.xfer.planSent p rest) hstill hready.1
    (hend.trans (donationLost_hand_setXfer ..)) hover
  exact exec_transferOut_lost hready hpick
    (((congrArg State.settle (transferOutGrant_plan hp hcp hplan hr h)).trans hset).trans (settle_of_still hover).symm) hfreed
    ((hand_endsAs _ _ _).trans (pageSent_endsAs s q p))

end Plan

section Closing

variable (hc : s.lane.close = some c) (hstage : c.stage = .closingPass) (hvote : c.vote = .running)
include hc hstage hvote

theorem exec_transferOut_final (hsig : c.signature = some g) (hclosing : s.xfer.closing = [p]) (hr : s.readable p = true)
    (h : ∀ o, o < 64 → (s.cell (p * 64 + o)).damage = .intact) :
    exec (.transferOut []) s =
      .next (((s.pageSent q p).hand q (.joinFinal c.cycle g)).freed.closingPassOver c) := by
  have hcp := closingPassRuns_of hc hstage
  obtain ⟨x, hx⟩ : ∃ x, x = (s.xfer.taken true).sentOut p := ⟨_, rfl⟩
  have hgrant : s.countNonHost.transferOutGrant [] = (s.pageSent q p).setXfer x := by
    have hsends := transferOutGrant_sends (s := s.countNonHost) (transferPage_closing hcp hclosing) hp hr h
    rw [show s.countNonHost.closingPassRuns = true from hcp] at hsends
    rw [hx]
    exact hsends
  have hrole' : x.role = .donor := by rw [hx]; exact hrole
  have hp' : x.partner = some (d, q) := by rw [hx]; exact hp
  have hclosing' : x.closing = [] := by rw [hx]; exact congrArg List.tail hclosing
  have hfinal := sendFinal_eq (s := (s.pageSent q p).setXfer x) hc hstage hvote hsig hrole' hclosing' hp'
  have hpass : ((s.pageSent q p).setXfer x).passTest = (s.pageSent q p).setXfer x := if_neg fun hx => hx.2.1 hcp
  have hsame : (((s.pageSent q p).setXfer x).hand q (.joinFinal c.cycle g)).freed.closingPassOver c =
      ((s.pageSent q p).hand q (.joinFinal c.cycle g)).freed.closingPassOver c := by
    rw [hand_eq, hand_eq]
    rfl
  have hover : (((s.pageSent q p).hand q (.joinFinal c.cycle g)).freed.closingPassOver c).still := by
    have hfreed : (((s.pageSent q p).hand q (.joinFinal c.cycle g)).closingPassOver c).freed.still :=
      still_released (still_hand (pageSent_still hstill q p) _ _)
    exact hfreed
  have hcheck : (((s.pageSent q p).hand q (.joinFinal c.cycle g)).freed.closingPassOver c).beginCheck = _ :=
    beginCheck_of_stands (checkStands_of_still hover)
  have hset := settle_of_engine (s := s.pageSent q p) (x := x) hstill hready.1
    (by rw [hpass, hfinal, hsame, hcheck]) hover
  have hends := (hand_endsAs (s.pageSent q p) q (.joinFinal c.cycle g)).trans (pageSent_endsAs s q p)
  refine exec_transferOut_same hready hpick ((congrArg State.settle hgrant).trans hset) hover
    (State.EndsAs.trans (w := (s.pageSent q p).hand q (.joinFinal c.cycle g)) ⟨rfl, rfl, rfl, rfl, rfl⟩ hends) ?_
  rw [hand_eq]
  rfl

variable (hclosing : s.xfer.closing = p :: later)
  (hr : ¬ ((s.page p).state = .sound ∨ (s.page p).state = .stale))
include hclosing hr

omit hstill hready hpick hrole hp in
/-- A closing page that cannot be sent: the pages left and the page itself are owed, and the hold is released (R131). -/
theorem transferOutGrant_abandons :
    s.countNonHost.transferOutGrant [] =
      ((s.countNonHost.closingPassOver c).setXfer { s.xfer with
        closing := [], resend := setUnion later (setAdd p s.xfer.resend) }).beginPass := by
  have hcp := closingPassRuns_of hc hstage
  have howes := transferOutGrant_owes (s := s.countNonHost) (transferPage_closing hcp hclosing) hr
  rw [show s.countNonHost.closingPassRuns = true from hcp] at howes
  have habandon := abandonClosingPass_eq
    (s := s.countNonHost.setXfer ((s.countNonHost.xfer.taken true).owing (setAdd p s.xfer.resend))) hc hvote
  refine (howes.trans habandon).trans ?_
  exact congrArg (fun l => ((s.countNonHost.closingPassOver c).setXfer { s.xfer with
    closing := [], resend := setUnion l (setAdd p s.xfer.resend) }).beginPass) (congrArg List.tail hclosing)

omit hp in
theorem exec_transferOut_abandons (hpass : s.xfer.pass < 8) :
    exec (.transferOut []) s =
      .next ((s.countNonHost.closingPassOver c).setXfer { s.xfer with
        pass := s.xfer.pass + 1, closing := [], plan := setUnion later (setAdd p s.xfer.resend), resend := []
        caughtUp := false }) := by
  have hgrant := (transferOutGrant_abandons hc hstage hvote hclosing hr).trans (beginPass_begins hpass)
  have hnext := still_abandoned (s := s.countNonHost) (c := c) (x := { s.xfer with
    pass := s.xfer.pass + 1, closing := [], plan := setUnion later (setAdd p s.xfer.resend), resend := [], caughtUp := false })
    hstill hrole (setUnion_ne_nil later (setAdd_ne_nil p _))
  exact exec_transferOut_same hready hpick ((congrArg State.settle hgrant).trans (settle_of_still hnext)) hnext
    ⟨rfl, rfl, rfl, rfl, rfl⟩ rfl

omit hrole in
theorem exec_transferOut_abandonsAtLimit (hpass : 8 ≤ s.xfer.pass) (hroom : s.roomFor 16) :
    exec (.transferOut []) s =
      .next (((s.countNonHost.closingPassOver c).hand q (.joinAbort .noConverge)).donationLost none 0 .noConverge).withAlert := by
  obtain ⟨x, hx⟩ : ∃ x : Transfer, x = { s.xfer with closing := [], resend := setUnion later (setAdd p s.xfer.resend) } :=
    ⟨_, rfl⟩
  have hp' : x.partner = some (d, q) := by rw [hx]; exact hp
  have hgrant := (transferOutGrant_abandons hc hstage hvote hclosing hr).trans (beginPass_ends hpass)
  rw [← hx, endDonation_free (s := (s.countNonHost.closingPassOver c).setXfer x) rfl hroom,
    aborted_some (s := (s.countNonHost.closingPassOver c).setXfer x) hp',
    donationLost_hand_setXfer] at hgrant
  exact exec_transferOut_lost hready hpick (congrArg State.settle hgrant)
    (still_released_hand (s := s.countNonHost) hstill q _)
    ((hand_endsAs _ _ _).trans ((closingPassOver_endsAs _ c).trans (countNonHost_endsAs s)))

end Closing

end TransferOut

/-! ### JOIN_ASK, PAGE_AGAIN and JOIN_ABORT (R126, R129, R138) -/

section Frames

variable {s t w : State} {n d : Nat} {f : RxFrame} {b code : Byte} {take : State → State} {c : Close} {x : Transfer}
  {page : Option Nat} {retry : Nat} {why : Reason}

/-- A donor at the grant of a JOIN-ASK (R126). -/
def State.donating (s : State) (n : Nat) (p : PortId) : State :=
  { s with
    xfer := { Transfer.fresh with
      role := .donor, partner := some (expectedLane n p, p), plan := s.signedPages }
    lane := s.lane.putPeer p { s.lane.peer p with relation := .receiver } }

theorem takeJoinAsk_grants (hn : s.laneNumber = some n) (ha : s.lane.state = .active) (hr : s.xfer.role = .none)
    (hp : s.pressure.p < 512) :
    s.takeJoinAsk f = (s.donating n f.port).hand f.port (.joinGrant s.signedPages.length) := by
  have hpartner : (s.laneOn f.port).map (fun l => (l, f.port)) = some (expectedLane n f.port, f.port) := by
    simp [State.laneOn, hn]
  unfold State.takeJoinAsk
  rw [if_neg (not_not_intro ha), if_neg (not_not_intro hr),
    if_neg (show ¬ Config.pressureHigh ≤ _ from Nat.not_le.mpr hp), hpartner]
  rfl

theorem still_donating (h : s.still) (hsig : s.signedPages ≠ [])
    (hclose : ∀ c, s.lane.close = some c → c.stage ≠ .closingPass) (p : PortId) : (s.donating n p).still := by
  have hlane : (s.lane.putPeer p { s.lane.peer p with relation := .receiver }).close = s.lane.close := by cases p <;> rfl
  refine still_transfer (x := (s.donating n p).xfer) (l := (s.donating n p).lane) h ?_ ?_ rfl
  · have hstands := h.1
    unfold State.closeStands at hstands ⊢
    simp only [State.setLane_lane, State.setLane_queue, State.setXfer_queue, State.donating, hlane]
    cases hc : s.lane.close with
    | none => rfl
    | some c =>
      simp only [hc, Bool.and_eq_true] at hstands
      obtain ⟨hdrain, -⟩ := hstands
      exact Bool.and_eq_true_iff.mpr ⟨hdrain, by simp [hclose c hc]⟩
  · simp [State.donorStands, State.donating, hsig]

/-- The engine once a PAGE-AGAIN for page `p` has been counted (R129). -/
def Transfer.retried (x : Transfer) (p : Nat) : Transfer := { x with retry := tabPut 0 x.retry p (x.retryOf p + 1) }

theorem takePageAgain_unsigned (hb : f.body = [b]) (hs : s.isSigned b.toNat = false) : s.takePageAgain f = s := by
  unfold State.takePageAgain
  rw [hb]
  exact if_neg fun h => Bool.false_ne_true (hs.symm.trans h.2.2)

theorem takePageAgain_eq (hr : s.xfer.role = .donor) (hp : s.xfer.partner = some (d, f.port)) (hb : f.body = [b])
    (hs : s.isSigned b.toNat = true) :
    s.takePageAgain f =
      if s.retryLimit < s.xfer.retryOf b.toNat + 1 then
        (s.setXfer (s.xfer.retried b.toNat)).endDonation (some .linkFault) (some b.toNat) (s.xfer.retryOf b.toNat + 1) .linkFault
      else if s.closingPassRuns then
        s.setXfer { s.xfer.retried b.toNat with closing := setAdd b.toNat s.xfer.closing }
      else s.setXfer ((s.xfer.retried b.toNat).owing (setAdd b.toNat s.xfer.resend)) := by
  unfold State.takePageAgain
  rw [hb]
  exact if_pos ⟨hr, fromPartner_of hp, hs⟩

theorem takeJoinAbort_donor (hr : s.xfer.role = .donor) (hp : s.xfer.partner = some (d, f.port)) :
    s.takeJoinAbort f = s.endDonation none none 0 .receiverAbort := by
  unfold State.takeJoinAbort
  rw [if_pos (fromPartner_of hp), hr]

variable (h : s.takesFrame n code f)
include h

/-- A frame that changes the transfer engine, whose blocks settle into the part `t`. -/
theorem frameEvent_settles (ht : take (s.heard f.port) = w) (hset : w.settle = t) (hstill : t.still) (he : t.EndsAs s)
    (ha : t.alertCond = s.alertCond) : s.frameEvent code f take = t :=
  (frameEvent_eq_event h take).trans (event_settles_same h.1 ((congrArg State.settle ht).trans hset) hstill he ha)

/-- A frame that ends a donation. -/
theorem frameEvent_donationLost (ht : (take (s.heard f.port)).settle = (w.donationLost page retry why).settle)
    (hw : w.freed.still) (he : w.EndsAs s) : s.frameEvent code f take = (w.donationLost page retry why).withAlert :=
  (frameEvent_eq_event h take).trans (event_donationLost h.1 ht hw he)

end Frames

section PageAgain

variable {s : State} {n d : Nat} {f : RxFrame} {b : Byte} {c : Close}

/-- A donor with its plan exhausted has caught up. -/
theorem caughtUp_of_donor (h : s.still) (hrole : s.xfer.role = .donor) (hcp : s.closingPassRuns = false)
    (hplan : s.xfer.plan = []) : s.xfer.caughtUp = true := by
  obtain ⟨-, -, -, hdonor, -⟩ := h
  simp only [State.donorStands, hrole, hcp, hplan, bne_self_eq_false, Bool.false_or, Bool.and_eq_true] at hdonor
  exact hdonor.2

/-- The order in which a hold is released and the partner is told is not seen. -/
theorem donationLost_hand_closingPassOver (s : State) (x : Transfer) (q : PortId) (a : LaneFrame) (page : Option Nat)
    (retry : Nat) (why : Reason) :
    (((s.setXfer x).hand q a).closingPassOver c).donationLost page retry why =
      ((s.closingPassOver c).hand q a).donationLost page retry why := by
  rw [hand_eq, hand_eq]
  rfl

variable (hstill : s.still) (h : s.takesFrame n 8 f) (hrole : s.xfer.role = .donor)
  (hp : s.xfer.partner = some (d, f.port)) (hb : f.body = [b]) (hsig : s.isSigned b.toNat = true)
include hstill h hrole hp hb hsig

section Within

variable (hwithin : s.xfer.retryOf b.toNat + 1 ≤ s.retryLimit)
include hwithin

omit hstill h in
theorem takePageAgain_within :
    (s.heard f.port).takePageAgain f =
      if s.closingPassRuns then
        (s.heard f.port).setXfer { s.xfer.retried b.toNat with closing := setAdd b.toNat s.xfer.closing }
      else (s.heard f.port).setXfer ((s.xfer.retried b.toNat).owing (setAdd b.toNat s.xfer.resend)) :=
  (takePageAgain_eq (s := s.heard f.port) hrole hp hb hsig).trans (if_neg (Nat.not_lt.mpr hwithin))

theorem exec_pageAgain_closes (hcp : s.closingPassRuns = true) :
    exec (.pageAgain f) s = .next ((s.heard f.port).setXfer { s.xfer.retried b.toNat with
      closing := setAdd b.toNat s.xfer.closing }) := by
  have htake := (takePageAgain_within hrole hp hb hsig hwithin).trans (if_pos hcp)
  have hnext := still_donor (s := s.heard f.port) (x := { s.xfer.retried b.toNat with
    closing := setAdd b.toNat s.xfer.closing }) hstill hrole (fun _ => setAdd_ne_nil _ _) (.inl hcp)
  exact congrArg Host.Outcome.next (frameEvent_settles h htake (settle_of_still hnext) hnext ⟨rfl, rfl, rfl, rfl, rfl⟩ rfl)

variable (hcp : s.closingPassRuns = false)
include hcp

omit hstill h in
theorem takePageAgain_owes :
    (s.heard f.port).takePageAgain f =
      (s.heard f.port).setXfer ((s.xfer.retried b.toNat).owing (setAdd b.toNat s.xfer.resend)) :=
  (takePageAgain_within hrole hp hb hsig hwithin).trans (if_neg (by simp [hcp]))

theorem exec_pageAgain_owes (hroom : s.xfer.plan ≠ [] ∨ (setAdd b.toNat s.xfer.resend).length ≤ 16) :
    exec (.pageAgain f) s =
      .next ((s.heard f.port).setXfer ((s.xfer.retried b.toNat).owing (setAdd b.toNat s.xfer.resend))) := by
  have hplan : s.xfer.plan ≠ [] ∨ (setAdd b.toNat s.xfer.resend).length ≤ 16 ∧ s.xfer.caughtUp = true := by
    by_cases hempty : s.xfer.plan = []
    · exact .inr ⟨hroom.resolve_left (not_not_intro hempty), caughtUp_of_donor hstill hrole hcp hempty⟩
    · exact .inl hempty
  have hnext := still_donor (s := s.heard f.port)
    (x := (s.xfer.retried b.toNat).owing (setAdd b.toNat s.xfer.resend)) hstill hrole
    (fun h => absurd (hcp.symm.trans h) Bool.false_ne_true) (.inr hplan)
  exact congrArg Host.Outcome.next (frameEvent_settles h (takePageAgain_owes hrole hp hb hsig hwithin hcp)
    (settle_of_still hnext) hnext ⟨rfl, rfl, rfl, rfl, rfl⟩ rfl)

variable (hplan : s.xfer.plan = []) (hmany : 16 < (setAdd b.toNat s.xfer.resend).length)
include hplan hmany

theorem exec_pageAgain_nextPass (hpass : s.xfer.pass < 8) :
    exec (.pageAgain f) s =
      .next ((s.heard f.port).setXfer ((s.xfer.retried b.toNat).nextPass (setAdd b.toNat s.xfer.resend))) := by
  have hnext := still_donor (s := s.heard f.port)
    (x := (s.xfer.retried b.toNat).nextPass (setAdd b.toNat s.xfer.resend)) hstill hrole
    (fun h => absurd (hcp.symm.trans h) Bool.false_ne_true) (.inr (.inl (setAdd_ne_nil _ _)))
  have hset := settle_of_plan (s := s.heard f.port)
    (x := (s.xfer.retried b.toNat).owing (setAdd b.toNat s.xfer.resend)) hstill (running_of_takesFrame h)
    (passTest_begins (s := (s.heard f.port).setXfer ((s.xfer.retried b.toNat).owing (setAdd b.toNat s.xfer.resend)))
      hrole hcp hplan hmany hpass) hnext
  exact congrArg Host.Outcome.next (frameEvent_settles h (takePageAgain_owes hrole hp hb hsig hwithin hcp) hset hnext
    ⟨rfl, rfl, rfl, rfl, rfl⟩ rfl)

theorem exec_pageAgain_passLimit (hpass : 8 ≤ s.xfer.pass) (hroom : s.roomFor 16) :
    exec (.pageAgain f) s =
      .next (((s.heard f.port).hand f.port (.joinAbort .noConverge)).donationLost none 0 .noConverge).withAlert := by
  have hfreed : ((s.heard f.port).hand f.port (.joinAbort .noConverge)).freed.still :=
    still_freed (still_hand (heard_still hstill f.port) _ _)
  have hover := donationLost_still (page := none) (retry := 0) (why := .noConverge) hfreed
  have hend := passTest_ends
    (s := (s.heard f.port).setXfer ((s.xfer.retried b.toNat).owing (setAdd b.toNat s.xfer.resend)))
    hrole hcp hplan hmany hpass hp hroom
  have hset := settle_of_plan (s := s.heard f.port)
    (x := (s.xfer.retried b.toNat).owing (setAdd b.toNat s.xfer.resend)) hstill (running_of_takesFrame h)
    (hend.trans (donationLost_hand_setXfer ..)) hover
  exact congrArg Host.Outcome.next (frameEvent_donationLost h
    (((congrArg State.settle (takePageAgain_owes hrole hp hb hsig hwithin hcp)).trans hset).trans (settle_of_still hover).symm)
    hfreed ((hand_endsAs _ _ _).trans (.heard s f.port)))

end Within

variable (hbeyond : s.retryLimit < s.xfer.retryOf b.toNat + 1) (hroom : s.roomFor 16)
include hbeyond hroom

omit hstill h hroom in
theorem takePageAgain_beyond :
    (s.heard f.port).takePageAgain f =
      ((s.heard f.port).setXfer (s.xfer.retried b.toNat)).endDonation (some .linkFault) (some b.toNat)
        (s.xfer.retryOf b.toNat + 1) .linkFault :=
  (takePageAgain_eq (s := s.heard f.port) hrole hp hb hsig).trans (if_pos hbeyond)

/-- Above the retry limit the donation ends (R129). -/
theorem exec_pageAgain_linkFault (hcp : s.closingPassRuns = false) :
    exec (.pageAgain f) s =
      .next (((s.heard f.port).hand f.port (.joinAbort .linkFault)).donationLost (some b.toNat)
        (s.xfer.retryOf b.toNat + 1) .linkFault).withAlert := by
  have htake := takePageAgain_beyond hrole hp hb hsig hbeyond
  rw [endDonation_free (s := (s.heard f.port).setXfer (s.xfer.retried b.toNat)) hcp hroom,
    aborted_some (s := (s.heard f.port).setXfer (s.xfer.retried b.toNat)) hp, donationLost_hand_setXfer] at htake
  exact congrArg Host.Outcome.next (frameEvent_donationLost h (congrArg State.settle htake)
    (still_freed (still_hand (heard_still hstill f.port) _ _)) ((hand_endsAs _ _ _).trans (.heard s f.port)))

theorem exec_pageAgain_linkFault_closing (hc : s.lane.close = some c) (hstage : c.stage = .closingPass)
    (hvote : c.vote = .running) :
    exec (.pageAgain f) s =
      .next ((((s.heard f.port).closingPassOver c).hand f.port (.joinAbort .linkFault)).donationLost (some b.toNat)
        (s.xfer.retryOf b.toNat + 1) .linkFault).withAlert := by
  have htake := takePageAgain_beyond hrole hp hb hsig hbeyond
  rw [endDonation_held (s := (s.heard f.port).setXfer (s.xfer.retried b.toNat)) hc hstage hvote hroom,
    aborted_some (s := (s.heard f.port).setXfer (s.xfer.retried b.toNat)) hp, donationLost_hand_closingPassOver] at htake
  exact congrArg Host.Outcome.next (frameEvent_donationLost h (congrArg State.settle htake)
    (still_released_hand (heard_still hstill f.port) _ _)
    ((hand_endsAs _ _ _).trans ((closingPassOver_endsAs _ c).trans (.heard s f.port))))

end PageAgain

section JoinAbort

variable {s : State} {n d : Nat} {f : RxFrame} {c : Close}

variable (hstill : s.still) (h : s.takesFrame n 10 f) (hrole : s.xfer.role = .donor)
  (hp : s.xfer.partner = some (d, f.port)) (hroom : s.roomFor 16)
include hstill h hrole hp hroom

theorem exec_joinAbort_donor (hcp : s.closingPassRuns = false) :
    exec (.joinAbort f) s = .next ((s.heard f.port).donationLost none 0 .receiverAbort).withAlert := by
  have htake := (takeJoinAbort_donor (s := s.heard f.port) hrole hp).trans
    (endDonation_free (s := s.heard f.port) hcp hroom)
  exact congrArg Host.Outcome.next (frameEvent_donationLost h (congrArg State.settle htake)
    (still_freed (heard_still hstill f.port)) (.heard s f.port))

theorem exec_joinAbort_donor_closing (hc : s.lane.close = some c) (hstage : c.stage = .closingPass)
    (hvote : c.vote = .running) :
    exec (.joinAbort f) s =
      .next (((s.heard f.port).closingPassOver c).donationLost none 0 .receiverAbort).withAlert := by
  have htake := (takeJoinAbort_donor (s := s.heard f.port) hrole hp).trans
    (endDonation_held (s := s.heard f.port) hc hstage hvote hroom)
  exact congrArg Host.Outcome.next (frameEvent_donationLost h (congrArg State.settle htake)
    (still_released (heard_still hstill f.port)) ((closingPassOver_endsAs _ c).trans (.heard s f.port)))

end JoinAbort

/-- Settles O51: each frame and each grant of a donor, by the pass it is in and what is left of it. -/
theorem donorGrantsSendsAndEnds : Obligations.DonorGrantsSendsAndEnds := by
  intro s f n hstill u
  have hheard : u.still := heard_still hstill f.port
  have hhand : ∀ a, (u.hand f.port a).still ∧ (u.hand f.port a).EndsAs s := fun a =>
    ⟨still_hand hheard _ _, (hand_endsAs u _ _).trans (.heard s f.port)⟩
  refine ⟨fun h => ?_, fun d q p rest hready hpick hrole hp => ?_, fun d b h hrole hp hb => ?_, fun d h hrole hp hroom =>
    ⟨exec_joinAbort_donor hstill h hrole hp hroom, fun c => exec_joinAbort_donor_closing hstill h hrole hp hroom⟩⟩
  · have hanswer : ∀ {a}, u.takeJoinAsk f = u.hand f.port a → exec (.joinAsk f) s = .next (u.hand f.port a) := fun {a} ht =>
      congrArg Host.Outcome.next (frameEvent_same h ht (hhand a).1 (hhand a).2 (by rw [hand_eq]; rfl))
    refine ⟨fun ha => hanswer (if_pos ha), fun ha hr => hanswer ((if_neg (not_not_intro ha)).trans (if_pos hr)),
      fun ha hr hpr => hanswer ((if_neg (not_not_intro ha)).trans ((if_neg (not_not_intro hr)).trans (if_pos hpr))),
      fun ha hr hpr hsig hclose => ?_⟩
    have hgrant := takeJoinAsk_grants (s := u) (f := f) h.2.1 ha hr hpr
    have hnext : (u.donating n f.port).still := still_donating hheard hsig hclose f.port
    have hends : (u.donating n f.port).EndsAs s := ⟨rfl, rfl, rfl, rfl, by
      cases f.port <;> simp [State.permitCond, State.donating, LaneUnit.putPeer] <;> rfl⟩
    exact congrArg Host.Outcome.next (frameEvent_same h hgrant (still_hand hnext _ _) ((hand_endsAs _ _ _).trans hends)
      (by rw [hand_eq]; rfl))
  · intro readable sound frame sent
    refine ⟨fun hcp hplan hr hs hne => ?_, fun hcp hplan hr hs hlast hfew => ?_, fun hcp hplan hr hs hlast hmany hpass => ?_,
      fun hcp hplan hr hs hlast hmany hpass hroom => ?_, fun c later hc hstage hvote hclosing hr => ⟨fun hpass => ?_,
        fun hpass hroom => ?_⟩, fun hcp hplan hr hne => ?_, fun c g hc hstage hvote hsig hclosing hr hs => ?_⟩
    · refine (exec_transferOut_sends hstill hready hpick hrole hp hcp hplan (readable_iff.mpr hr) hs hne).trans ?_
      rw [hand_eq]
      rfl
    · refine (exec_transferOut_catchesUp hstill hready hpick hrole hp hcp hplan (readable_iff.mpr hr) hs hlast hfew).trans ?_
      rw [hand_eq]
      rfl
    · refine (exec_transferOut_nextPass hstill hready hpick hrole hp hcp hplan (readable_iff.mpr hr) hs hlast hmany
        hpass).trans ?_
      rw [hand_eq]
      rfl
    · refine (exec_transferOut_passLimit hstill hready hpick hrole hp hcp hplan (readable_iff.mpr hr) hs hlast hmany hpass
        hroom).trans ?_
      rw [pageSent_eq]
      rfl
    · exact exec_transferOut_abandons hstill hready hpick hrole hc hstage hvote hclosing hr hpass
    · exact exec_transferOut_abandonsAtLimit hstill hready hpick hp hc hstage hvote hclosing hr hpass hroom
    · exact exec_transferOut_owes hstill hready hpick hrole hcp hplan hr hne
    · refine (exec_transferOut_final hstill hready hpick hrole hp hc hstage hvote hsig hclosing (readable_iff.mpr hr) hs).trans ?_
      rw [pageSent_eq]
      rfl
  · intro p count retry again
    refine ⟨fun hsig => ?_, fun hsig hin hcp hroom => ?_, fun hsig hin hcp hplan hmany hpass => ?_,
      fun hsig hin hcp hplan hmany hpass hroom => ?_, fun c hsig hout hc hstage hvote hroom => ?_,
      fun hsig hin hcp => ?_, fun hsig hout hcp hroom => ?_⟩
    · exact congrArg Host.Outcome.next (frameEvent_same h (takePageAgain_unsigned (s := u) hb hsig) hheard (.heard s f.port) rfl)
    · exact exec_pageAgain_owes hstill h hrole hp hb hsig hin hcp hroom
    · exact exec_pageAgain_nextPass hstill h hrole hp hb hsig hin hcp hplan hmany hpass
    · exact exec_pageAgain_passLimit hstill h hrole hp hb hsig hin hcp hplan hmany hpass hroom
    · exact exec_pageAgain_linkFault_closing hstill h hrole hp hb hsig hout hroom hc hstage hvote
    · exact exec_pageAgain_closes hstill h hrole hp hb hsig hin hcp
    · exact exec_pageAgain_linkFault hstill h hrole hp hb hsig hout hroom hcp

end Sys2Proof.Machine
end

section
/-! The fault store as the host reads and writes it: FAULT FRAME, FAULT SETS, RELEASE FAULT, CLEAR ACCRUED and SET ALERT MASK
(R143 to R145, R150 to R152, R167). -/

namespace Sys2Proof.Machine

/-! ### The set that a list of kind codes names (R144, R167) -/

section Codes

variable {k : FaultKind} {b : Byte} {bs : List Byte}

theorem FaultKind.code_range (k : FaultKind) : 1 ≤ k.code ∧ k.code ≤ 21 := by cases k <;> decide

/-- The kind found for a code has that code. -/
theorem FaultKind.code_of_ofCode {n : Nat} (h : FaultKind.ofCode n = some k) : k.code = n := by
  unfold FaultKind.ofCode at h
  split at h <;> cases h <;> rfl

/-- Every code from 1 to 21 names a kind. -/
theorem FaultKind.exists_ofCode {n : Nat} (h : 1 ≤ n ∧ n ≤ 21) : ∃ k, FaultKind.ofCode n = some k := by
  have hall : ∀ i : Fin 21, (FaultKind.ofCode (i.val + 1)).isSome = true := by decide
  have hsome := hall ⟨n - 1, by omega⟩
  rw [show n - 1 + 1 = n by omega] at hsome
  exact Option.isSome_iff_exists.mp hsome

/-- No other code names one. -/
theorem FaultKind.ofCode_outside {n : Nat} (h : n = 0 ∨ 21 < n) : FaultKind.ofCode n = none := by
  refine Option.eq_none_iff_forall_ne_some.mpr fun k hk => ?_
  have hcode := code_of_ofCode hk
  have hrange := k.code_range
  omega

/-- The set of one kind holds the bit of its code alone. -/
theorem FaultKind.getLsbD_bit {i : Nat} (hi : i < 21) : k.bit.getLsbD i = true ↔ i + 1 = k.code := by
  have hrange := k.code_range
  simp only [FaultKind.bit, BitVec.getLsbD_ofNat, hi, decide_true, Bool.true_and, Nat.testBit_two_pow, decide_eq_true_eq]
  omega

theorem kindSetOfCodes_cons (h : FaultKind.ofCode b.toNat = some k) :
    kindSetOfCodes (b :: bs) = (kindSetOfCodes bs).map (· ||| k.bit) := by
  simp only [kindSetOfCodes, h]
  cases kindSetOfCodes bs <;> rfl

/-- A list with a code that names no kind names no set. -/
theorem kindSetOfCodes_none (h : ∃ b ∈ bs, b.toNat = 0 ∨ 21 < b.toNat) : kindSetOfCodes bs = none := by
  induction bs with
  | nil => simp at h
  | cons c bs ih =>
    cases hc : FaultKind.ofCode c.toNat with
    | none => simp only [kindSetOfCodes, hc]
    | some k =>
      obtain ⟨b, hmem, hb⟩ := h
      rcases List.mem_cons.mp hmem with rfl | hmem
      · rw [FaultKind.ofCode_outside hb] at hc
        cases hc
      · rw [kindSetOfCodes_cons hc, ih ⟨b, hmem, hb⟩]
        rfl

/-- A byte is the code `i + 1` of a kind where that kind's bit is bit `i`. -/
theorem ofNat_eq_iff_code {i : Nat} (hi : i < 21) (h : FaultKind.ofCode b.toNat = some k) :
    BitVec.ofNat 8 (i + 1) = b ↔ i + 1 = k.code := by
  rw [FaultKind.code_of_ofCode h, ← BitVec.toNat_inj, BitVec.toNat_ofNat, Nat.mod_eq_of_lt (by omega)]

/-- A list of codes of kinds names the set that holds just the bits of its codes; order, repeats and length do not count. -/
theorem kindSetOfCodes_some (h : ∀ b ∈ bs, 1 ≤ b.toNat ∧ b.toNat ≤ 21) :
    ∃ m, kindSetOfCodes bs = some m ∧ ∀ i < 21, (m.getLsbD i = true ↔ BitVec.ofNat 8 (i + 1) ∈ bs) := by
  induction bs with
  | nil => exact ⟨0, rfl, by simp⟩
  | cons b bs ih =>
    obtain ⟨hb, hbs⟩ := List.forall_mem_cons.mp h
    obtain ⟨k, hk⟩ := FaultKind.exists_ofCode hb
    obtain ⟨m, hm, hbits⟩ := ih hbs
    refine ⟨m ||| k.bit, by rw [kindSetOfCodes_cons hk, hm]; rfl, fun i hi => ?_⟩
    rw [BitVec.getLsbD_or, Bool.or_eq_true, hbits i hi, FaultKind.getLsbD_bit hi, ← ofNat_eq_iff_code hi hk, List.mem_cons]
    exact or_comm

end Codes

/-! ### Requests to the fault store -/

section FaultStore

variable {s : State} {r : Request} {k : ReqKind} {st : Status} {b : ReplyBody}

/-- A plain request whose handler answers and does nothing else. -/
theorem plain_reply_only (hs : s.serves k r) (hd : s.working.dispatch k r [] = s.working.answer k r.tag st b)
    (hst : st ≠ .starting) : s.plainEvent (fun t => t.takeRequest k r []) = s.replying k r.tag st b :=
  plain_reply_same (u := s.working) hs hd rfl rfl hst rfl rfl rfl rfl

/-- The fault store replaced, with the ALERT line at what the new one makes it (R145). -/
def State.storing (s : State) (x : FaultStore) : State :=
  { s with faults := x, pins := { s.pins with alert := (x.accrued &&& x.mask) != 0 || x.primary.isSome } }

/-- A plain request whose handler replaces the fault store and answers OK: ALERT follows the new store. -/
theorem plain_reply_storing {x : FaultStore} (hs : s.serves k r)
    (hd : s.working.dispatch k r [] = (s.working.setFaults x).refuse k r.tag .ok) :
    s.plainEvent (fun t => t.takeRequest k r []) = (s.storing x).replying k r.tag .ok .empty :=
  plain_reply (u := s.working.setFaults x) hs hd rfl rfl (by decide) rfl rfl rfl

/-- FAULT FRAME answers from the primary slot and, where it is empty, from whether any fault was noted (R150). -/
theorem execFaultFrame_eq (hs : s.serves .faultFrame r) :
    exec (.faultFrame r) s = .next (s.replying .faultFrame r.tag .ok
      (match s.faults.primary with
        | some f => .faultFrame s.faults.secondary.isSome s.faults.lost f
        | none => if s.faults.any then .clearFrame else .noFrame)) :=
  congrArg Host.Outcome.next (plain_reply_only hs rfl (by decide))

theorem execFaultSets_eq (hs : s.serves .faultSets r) :
    exec (.faultSets r) s = .next (s.replying .faultSets r.tag .ok
      (.faultSets s.faults.current s.faults.accrued s.faults.mask s.faults.lost s.faults.any)) :=
  congrArg Host.Outcome.next (plain_reply_only hs rfl (by decide))

theorem execReleaseFault_notHeld (hs : s.serves .releaseFault r) (h : s.faults.primary = none) :
    exec (.releaseFault r) s = .next (s.replying .releaseFault r.tag .notHeld .empty) := by
  have hd : s.working.onReleaseFault r = s.working.refuse .releaseFault r.tag .notHeld := by
    simp only [State.onReleaseFault, show s.working.faults.primary = none from h]
  exact congrArg Host.Outcome.next (plain_reply_only hs hd (by decide))

/-- The store once the primary frame is discarded and the secondary has moved up (R151). -/
def FaultStore.released (x : FaultStore) : FaultStore :=
  { x with primary := x.secondary, secondary := none, lost := x.lost && x.secondary.isSome }

theorem execReleaseFault_held {f : FaultFrame} (hs : s.serves .releaseFault r) (h : s.faults.primary = some f) :
    exec (.releaseFault r) s = .next ((s.storing s.faults.released).replying .releaseFault r.tag .ok .empty) := by
  have hd : s.working.onReleaseFault r = (s.working.setFaults s.faults.released).refuse .releaseFault r.tag .ok := by
    simp only [State.onReleaseFault, show s.working.faults.primary = some f from h]
    rfl
  exact congrArg Host.Outcome.next (plain_reply_storing hs hd)

/-- The frame-lost indicator stands only while a frame is held. -/
theorem released_lost (x : FaultStore) : x.released.lost = if x.secondary = none then false else x.lost := by
  cases h : x.secondary <;> simp [FaultStore.released, h]

theorem execClearAccrued_eq (hs : s.serves .clearAccrued r) :
    exec (.clearAccrued r) s = .next
      ((s.storing { s.faults with current := 0, accrued := 0 }).replying .clearAccrued r.tag .ok .empty) :=
  congrArg Host.Outcome.next (plain_reply_storing hs rfl)

theorem execSetAlertMask_badField (hs : s.serves .setAlertMask r) (h : kindSetOfCodes r.body = none) :
    exec (.setAlertMask r) s = .next (s.replying .setAlertMask r.tag .badField .empty) := by
  have hd : s.working.onSetAlertMask r = s.working.refuse .setAlertMask r.tag .badField := by
    simp only [State.onSetAlertMask, h]
  exact congrArg Host.Outcome.next (plain_reply_only hs hd (by decide))

theorem execSetAlertMask_sets {m : KindSet} (hs : s.serves .setAlertMask r) (h : kindSetOfCodes r.body = some m) :
    exec (.setAlertMask r) s = .next
      ((s.storing { s.faults with mask := m }).replying .setAlertMask r.tag .ok .empty) := by
  have hd : s.working.onSetAlertMask r =
      (s.working.setFaults { s.faults with mask := m }).refuse .setAlertMask r.tag .ok := by
    simp only [State.onSetAlertMask, h]
    rfl
  exact congrArg Host.Outcome.next (plain_reply_storing hs hd)

/-- With no fault accrued, only a held frame keeps ALERT asserted. -/
theorem alert_of_noneAccrued (mask : KindSet) (p : Bool) : (((0 : KindSet) &&& mask) != 0 || p) = p := by
  rw [show (0 : KindSet) &&& mask = 0 from BitVec.zero_and]
  rfl

end FaultStore

/-- Settles O1: each request is one answer from the store, and FAULT FRAME's is read off case by case. -/
theorem faultFrameAndFaultSetsReadTheStore : Obligations.FaultFrameAndFaultSetsReadTheStore := by
  intro s r
  refine ⟨fun hs => ⟨fun hnone hany => ?_, fun hnone hany => ?_, fun f hf => ?_⟩, execFaultSets_eq⟩
  · rw [execFaultFrame_eq hs, hnone, hany]
    rfl
  · rw [execFaultFrame_eq hs, hnone, hany]
    rfl
  · rw [execFaultFrame_eq hs, hf]

/-- Settles O2: refused with nothing held; otherwise the store is the released one, and ALERT follows it. -/
theorem releaseFaultMovesTheSecondaryUp : Obligations.ReleaseFaultMovesTheSecondaryUp := by
  intro s r hs
  refine ⟨execReleaseFault_notHeld hs, fun f hf => ?_⟩
  rw [execReleaseFault_held hs hf, ← released_lost]
  rfl

/-- Settles O3: CLEAR ACCRUED empties the two sets; SET ALERT MASK by whether every code of its list names a kind. -/
theorem clearAccruedAndSetAlertMaskWriteTheSets : Obligations.ClearAccruedAndSetAlertMaskWriteTheSets := by
  intro s r
  refine ⟨fun hs => ?_, fun hs => ⟨fun hbad => execSetAlertMask_badField hs (kindSetOfCodes_none hbad), fun hkinds => ?_⟩⟩
  · rw [execClearAccrued_eq hs, State.storing, alert_of_noneAccrued]
  · obtain ⟨m, hm, hbits⟩ := kindSetOfCodes_some hkinds
    exact ⟨m, hbits, execSetAlertMask_sets hs hm⟩

end Sys2Proof.Machine
end

section
/-! What a host sends and what the part reads from it: the bodies of the requests, and the codes of their kinds (R155, R161, R167). -/

namespace Sys2Proof.Machine

/-! ### Numbers, flags and sets on the wire -/

section Wire

theorem toNat_byteOf {n : Nat} (h : n < 256) : (byteOf n).toNat = n :=
  (BitVec.toNat_ofNat n 8).trans (Nat.mod_eq_of_lt h)

/-- A flag sets the bit it stands at, and no other. -/
theorem getLsbD_flag {i n : Nat} (hi : i < 8) (b : Bool) : (flag n b).getLsbD i = (b && decide (n = i)) := by
  cases b with
  | false => simp [flag]
  | true => simp only [flag, if_true, BitVec.getLsbD_ofNat, hi, decide_true, Bool.true_and, Nat.testBit_two_pow]

/-- A set of fault kinds reads from its three bytes as it was sent. -/
theorem kindSetOfBytes_kindSetBytes (x : KindSet) :
    kindSetOfBytes ((x.setWidth 24).extractLsb' 16 8) ((x.setWidth 24).extractLsb' 8 8)
      ((x.setWidth 24).extractLsb' 0 8) = x := by
  unfold kindSetOfBytes
  ext i hi
  simp only [BitVec.getElem_setWidth, BitVec.getLsbD_append, BitVec.getLsbD_extractLsb', BitVec.getLsbD_setWidth]
  rw [← BitVec.getLsbD_eq_getElem]
  grind

theorem FaultKind.ofCode_code (k : FaultKind) : FaultKind.ofCode k.code = some k := by cases k <;> rfl

theorem FaultKind.toNat_byteOf_code (k : FaultKind) : (byteOf k.code).toNat = k.code :=
  toNat_byteOf (by have := k.code_range; omega)

theorem FaultKind.byteOf_code_inj {j k : FaultKind} : byteOf j.code = byteOf k.code ↔ j = k := by
  refine ⟨fun h => ?_, fun h => by rw [h]⟩
  have hcode : j.code = k.code := by rw [← toNat_byteOf_code j, h, toNat_byteOf_code]
  exact Option.some.inj (by rw [← ofCode_code j, hcode, ofCode_code])

/-- The codes of a list of kinds name the set of those kinds. -/
theorem kindSetOfCodes_codes (ks : List FaultKind) :
    ∃ m, kindSetOfCodes (ks.map (fun k => byteOf k.code)) = some m ∧ ∀ k, kindIn k m = true ↔ k ∈ ks := by
  have hrange : ∀ b ∈ ks.map (fun k => byteOf k.code), 1 ≤ b.toNat ∧ b.toNat ≤ 21 := by
    simp only [List.forall_mem_map, FaultKind.toNat_byteOf_code]
    exact fun k _ => k.code_range
  obtain ⟨m, hm, hbits⟩ := kindSetOfCodes_some hrange
  refine ⟨m, hm, fun k => ?_⟩
  have hk := k.code_range
  rw [kindIn, hbits _ (by omega), Nat.sub_add_cancel hk.1, List.mem_map]
  simp only [show BitVec.ofNat 8 k.code = byteOf k.code from rfl, FaultKind.byteOf_code_inj, exists_eq_right]

end Wire

/-! ### Commissioning records (R161) -/

section Record

variable {r : CommRecord} {g : Region} {gs : List Region}

/-- A region entry reads from its four bytes as it was sent: each flag stands at a bit of its own. -/
theorem regionOfBytes_regionBytes (h : WellFormed.region g = true) :
    regionOfBytes (byteOf g.number) (byteOf g.first) (byteOf g.last)
      (flag 0 g.signed ||| flag 1 g.journalled ||| flag 2 g.checkpointed ||| flag 3 g.guarded ||| flag 4 g.autoRestore)
      = g := by
  simp only [WellFormed.region, Bool.and_eq_true, decide_eq_true_eq] at h
  obtain ⟨⟨hnumber, hfirst⟩, hlast⟩ := h
  simp only [regionOfBytes, toNat_byteOf hnumber, toNat_byteOf hfirst, toNat_byteOf hlast, BitVec.getLsbD_or]
  simp [-BitVec.getLsbD_eq_getElem, getLsbD_flag]

theorem regionsOfBytes_regionBytes (h : ∀ g ∈ gs, WellFormed.region g = true) :
    regionsOfBytes (gs.flatMap regionBytes) = some gs := by
  induction gs with
  | nil => rfl
  | cons g gs ih =>
    obtain ⟨hg, hgs⟩ := List.forall_mem_cons.mp h
    simp only [List.flatMap_cons, regionBytes, List.cons_append, List.nil_append, regionsOfBytes]
    rw [show regionsOfBytes (gs.flatMap regionBytes) = some gs from ih hgs]
    simp only [regionOfBytes_regionBytes hg]

/-- A commissioning record reads as it was written. -/
theorem commissioningArgs_commRecordBytes (h : WellFormed.commRecord r = true) :
    commissioningArgs (commRecordBytes r) = some r := by
  simp only [WellFormed.commRecord, Bool.and_eq_true, decide_eq_true_eq, List.all_eq_true] at h
  obtain ⟨⟨⟨⟨⟨⟨⟨⟨⟨⟨⟨hlane, hstation⟩, hvote⟩, habstain⟩, hpatrol⟩, hdecay⟩, hhigh⟩, hlow⟩, hhold⟩, hretry⟩, hcount⟩,
    hregions⟩ := h
  simp only [commRecordBytes, halfOf, halfBytes, kindSetBytes, List.cons_append, List.nil_append, commissioningArgs,
    regionsOfBytes_regionBytes hregions, half_halfBytes, kindSetOfBytes_kindSetBytes, BitVec.toNat_ofNat,
    Nat.mod_eq_of_lt hstation, toNat_byteOf hlane, toNat_byteOf hvote, toNat_byteOf habstain, toNat_byteOf hpatrol,
    toNat_byteOf hdecay, toNat_byteOf hhigh, toNat_byteOf hlow, toNat_byteOf hhold, toNat_byteOf hretry,
    toNat_byteOf (show r.regions.length < 256 by omega), if_true]

end Record

/-! ### Kinds of requests (R167) -/

/-- No two kinds share a code. -/
theorem ReqKind.code_injective {j k : ReqKind} (h : j.code = k.code) : j = k :=
  Option.some.inj (by rw [← ofCode_code j, h, ofCode_code])

/-- Settles O21: each field reads from its own bytes, and the lists item by item. -/
theorem requestsDecodeAsSent : Obligations.RequestsDecodeAsSent := by
  refine ⟨fun p o vs hp ho => ?_, fun p o v hp ho => ?_, fun n o => ?_, fun n => ?_, kindSetOfCodes_codes,
    fun r => commissioningArgs_commRecordBytes, makeRequest_sound, ofCode_code, fun j k => ReqKind.code_injective⟩
  · simp only [writeArgs, wordsOfBytes_bytesOfWords, toNat_byteOf hp, toNat_byteOf ho]
  · simp only [exchangeArgs, wordBytes, word_wordBytes, toNat_byteOf hp, toNat_byteOf ho]
  · simp only [halfBytes, List.cons_append, List.nil_append, closeArgs, half_halfBytes]
  · simp only [halfBytes, cycleRecordArgs, half_halfBytes]

end Sys2Proof.Machine
end

section
/-! The host link: the reports of the part, the interval that chip select opens and ends, and requests that fail a link test (R154
to R160). -/

namespace Sys2Proof.Machine

/-! ### The reports (R109, R159) -/

section Reports

variable {s : State} {r : Request}

theorem execStatus_eq (hs : s.serves .status r) :
    exec (.status r) s = .next (s.replying .status r.tag .ok (.status s.statusView)) :=
  congrArg Host.Outcome.next (plain_reply_only hs rfl (by decide))

theorem execCheckpointStatus_eq (hs : s.serves .checkpointStatus r) :
    exec (.checkpointStatus r) s =
      .next (s.replying .checkpointStatus r.tag .ok (.checkpointStatus s.checkpointView)) :=
  congrArg Host.Outcome.next (plain_reply_only hs rfl (by decide))

end Reports

/-- Settles O5: each report is one answer, whose view holds the items that its rule lists. -/
theorem statusRequestsShowThePart : Obligations.StatusRequestsShowThePart :=
  fun _ _ => ⟨execStatus_eq, execCheckpointStatus_eq⟩

/-! ### Chip select and the data line (R154, R156, R160) -/

section ChipSelect

variable {s : State}

theorem hdo_highImpedance (h : s.link.hcsLow = false ∨ s.phase = .off ∨ s.phase = .held) : s.hdo = .highImpedance :=
  if_pos h

/-- With HCS low and the part neither off nor in reset, nothing releases the line. -/
theorem not_released (hlow : s.link.hcsLow = true) (hphase : s.phase = .startUp ∨ s.phase = .running) :
    ¬ (s.link.hcsLow = false ∨ s.phase = .off ∨ s.phase = .held) := by
  rcases hphase with h | h <;> simp [hlow, h]

/-- In an open interval of a part that is neither off nor in reset, HDO gives FFh in every phase but REPLYING. -/
theorem hdo_filler (hlow : s.link.hcsLow = true) (hphase : s.phase = .startUp ∨ s.phase = .running)
    (h : s.link.phase ≠ .replying) : s.hdo = .filler := by
  rw [State.hdo, if_neg (not_released hlow hphase)]
  split
  · contradiction
  · rfl

/-- In REPLYING it gives the bytes of the reply behind a filler byte. -/
theorem hdo_reply {r : Reply} (hlow : s.link.hcsLow = true) (hphase : s.phase = .startUp ∨ s.phase = .running)
    (h : s.link.phase = .replying) (hr : s.link.reply = some r) : s.hdo = .reply (0xFF :: r.bytes) := by
  rw [State.hdo, if_neg (not_released hlow hphase), h, hr]
  rfl

end ChipSelect

/-- Settles O25: each command by the test it begins with, and HDO by the line, the part's phase and the assembler's. -/
theorem chipSelectOpensAndEndsIntervals : Obligations.ChipSelectOpensAndEndsIntervals := by
  intro s
  refine ⟨fun hhigh hidle hphase => ?_, fun hhigh hphase => ?_, fun hlow => if_pos hlow, fun h => if_pos h,
    hdo_highImpedance, fun hlow hphase => ⟨hdo_filler hlow hphase, fun r => hdo_reply hlow hphase⟩⟩
  · exact (if_neg (by simp [hhigh])).trans (if_pos ⟨hidle, hphase⟩)
  · refine (if_neg (by simp [hhigh])).trans (if_neg fun ⟨_, hup⟩ => ?_)
    rcases hphase with h | h <;> simp [h] at hup

/-! ### Requests that fail a link test (R155, R157, R158) -/

section LinkTests

variable {s : State} {r : Request} {k : ReqKind} {kind tag : Byte} {ups : List Upset} {st : Status}

/-- The answer that a request which fails a link test is given, before its reply is built. -/
def State.turnsAway (s : State) (kind tag : Byte) (st : Status) : State :=
  s.setLink { s.link with answer := some { kind := kind, tag := tag, status := st, body := .empty } }

/-- The state with the reply to such a request begun: its kind and tag echoed, an empty body, and no summary for STARTING. -/
def State.turnedAway (s : State) (kind tag : Byte) (st : Status) : State :=
  s.setLink { s.link with
    phase := .replying, live := true
    reply := some {
      kind := kind, tag := tag, status := st
      summary := if st = .starting then none else some (s.summary false), body := .empty } }

/-- Between two events nothing is owed, so that the end of the event builds the reply and does nothing else. -/
theorem closeEvent_turnsAway (hout : s.settledOutputs) :
    (s.working.turnsAway kind tag st).closeEvent = s.turnedAway kind tag st := by
  obtain ⟨hlines, hquiet⟩ := hout
  have ⟨hanswer, hmoved, hwithdrawn⟩ := hquiet
  have howed : (s.working.turnsAway kind tag st).frameOwed = s.working.turnsAway kind tag st :=
    if_neg (by simp [State.working, State.turnsAway, hwithdrawn])
  have hbuilt : (s.working.turnsAway kind tag st).buildReply = s.turnedAway kind tag st := by
    simp only [State.turnedAway, hanswer]
    rfl
  have htold : (s.turnedAway kind tag st).tellState = s.turnedAway kind tag st := by
    simp only [State.tellState, State.turnedAway, State.setLink_notes, hmoved, Bool.false_eq_true, if_false,
      ← hquiet.notes_eq]
    rfl
  have hdriven : (s.turnedAway kind tag st).drivePins = s.turnedAway kind tag st := drivePins_of_lines hlines
  rw [State.closeEvent, howed, hbuilt, htold, hdriven]

/-- A plain event in which the only request is turned away. -/
theorem plainEvent_turnsAway {f : State → State} (hout : s.settledOutputs)
    (hf : f s = s.working.turnsAway kind tag st) : s.plainEvent f = s.turnedAway kind tag st := by
  rw [State.plainEvent, hf, closeEvent_turnsAway hout]

/-- Nothing follows such a request in other blocks either: start-up lets no block act, and a part that runs stands still. -/
theorem event_turnsAway {f : State → State} (hout : s.settledOutputs) (hjob : s.link.job = none)
    (hsecond : s.link.second = none) (hstill : s.phase = .running → s.still)
    (hf : f s = s.working.turnsAway kind tag st) : s.event f = s.turnedAway kind tag st := by
  have hset : (s.working.turnsAway kind tag st).settle = s.working.turnsAway kind tag st := by
    by_cases hrun : s.phase = .running
    · exact settle_of_still (still_setLink.mpr (hstill hrun))
    · exact if_neg hrun
  have hidle : (s.working.turnsAway kind tag st).afterwards = s.working.turnsAway kind tag st :=
    afterwards_of_idle hjob hsecond
  rw [State.event, hf, hset, hidle, closeEvent_turnsAway hout]

/-- With none waiting, a request taken in RECEIVING is handled at once. -/
theorem takeByte_of_receiving (hrec : s.link.phase = .receiving) (hjob : s.link.job = none) :
    s.takeByte kind r ups = s.working.handleByte kind r ups := by
  rw [State.takeByte, if_neg (not_not_intro hrec)]
  split
  next => rfl
  next j hj => cases hjob.symm.trans hj

/-- A request of one of the 26 kinds that fails a test is answered with the first failing test's status. -/
theorem handleByte_of_linkRefusal (h : s.linkRefusal k r = some st) :
    s.handleByte k.code r ups = s.turnsAway k.code r.tag st := by
  simp only [State.handleByte, ofCode_code, State.handleRequest, h]
  rfl

/-- The kind that a code names has that code. -/
theorem ReqKind.code_of_ofCode (h : ReqKind.ofCode kind = some k) : k.code = kind := by
  unfold ReqKind.ofCode at h
  split at h <;> cases h
  all_goals
    rename_i hcode
    exact BitVec.eq_of_toNat_eq hcode.symm

theorem requestSound_iff :
    requestSound kind r = true ↔ r.check = frameCheck (kind :: r.tag :: (halfOf r.body.length ++ r.body)) :=
  beq_iff_eq

/-- A part that takes requests and does not run is in start-up. -/
theorem phase_ne_running (h : s.phase = .startUp ∨ s.phase = .running) : s.phase ≠ .running ↔ s.phase = .startUp := by
  rcases h with h | h <;> simp [h]

/-- The tests of a request of one of the 26 kinds, in the order of R155. -/
theorem linkRefusal_eq (hphase : s.phase = .startUp ∨ s.phase = .running) :
    s.linkRefusal k r =
      if r.check ≠ frameCheck (k.code :: r.tag :: (halfOf r.body.length ++ r.body)) then some .frameCheck
      else if s.phase = .startUp then some .starting
      else if 256 < r.body.length ∨ k.fits r.body = false then some .badLength
      else none := by
  simp only [State.linkRefusal, Bool.not_eq_true', ← Bool.not_eq_true, requestSound_iff, phase_ne_running hphase]
  rfl

/-- The tests that a request which comes as UNKNOWN_KIND can fail, in the order of R155. -/
def State.byteRefusal (s : State) (kind : Byte) (r : Request) : Option Status :=
  if r.check ≠ frameCheck (kind :: r.tag :: (halfOf r.body.length ++ r.body)) then some .frameCheck
  else if s.phase = .startUp then some .starting
  else if ReqKind.ofCode kind = none then some .unknownKind
  else none

/-- For one of the 26 kinds they are the first tests of its own command. -/
theorem linkRefusal_of_byteRefusal (hphase : s.phase = .startUp ∨ s.phase = .running)
    (h : s.byteRefusal k.code r = some st) : s.linkRefusal k r = some st := by
  rw [State.byteRefusal, ofCode_code, if_neg (Option.some_ne_none k)] at h
  rw [linkRefusal_eq hphase]
  split_ifs at h ⊢ <;> exact h

/-- A request that fails one of them is answered with that status, its kind byte echoed. -/
theorem handleByte_of_byteRefusal (hphase : s.phase = .startUp ∨ s.phase = .running)
    (h : s.byteRefusal kind r = some st) : s.handleByte kind r ups = s.turnsAway kind r.tag st := by
  cases hk : ReqKind.ofCode kind with
  | some k =>
    obtain rfl := ReqKind.code_of_ofCode hk
    exact handleByte_of_linkRefusal (linkRefusal_of_byteRefusal hphase h)
  | none =>
    have hst : (if !requestSound kind r then Status.frameCheck else if s.phase ≠ .running then .starting
        else .unknownKind) = st := by
      simp only [Bool.not_eq_true', ← Bool.not_eq_true, requestSound_iff, phase_ne_running hphase]
      simp only [State.byteRefusal, hk, if_true, ne_eq] at h
      split_ifs at h ⊢ <;> exact Option.some.inj h
    simp only [State.handleByte, hk, State.handleUnknown, hst]
    rfl

/-- A request that reaches the handling of its kind in a running part fails none of them. -/
theorem not_handled_of_byteRefusal (h : s.byteRefusal kind r = some st) :
    ¬ ((ReqKind.ofCode kind).isSome ∧ requestSound kind r ∧ s.phase = .running) := by
  rintro ⟨hkind, hsound, hrun⟩
  rw [State.byteRefusal, if_neg (not_not_intro (requestSound_iff.mp hsound)), hrun, if_neg (by decide),
    if_neg (Option.isSome_iff_ne_none.mp hkind)] at h
  cases h

theorem execUnknownKind_turnsAway (hphase : s.phase = .startUp ∨ s.phase = .running) (hrec : s.link.phase = .receiving)
    (hjob : s.link.job = none) (hout : s.settledOutputs) (h : s.byteRefusal kind r = some st) :
    exec (.unknownKind kind r) s = .next (s.turnedAway kind r.tag st) := by
  have htaken : s.takeByte kind r [] = s.working.turnsAway kind r.tag st :=
    (takeByte_of_receiving hrec hjob).trans (handleByte_of_byteRefusal (s := s.working) hphase h)
  exact (if_neg (not_handled_of_byteRefusal h)).trans (congrArg Host.Outcome.next (plainEvent_turnsAway hout htaken))

/-- The command of a request takes the request, in an event that may reach other blocks or in a plain one. -/
theorem exec_requestCommand (k : ReqKind) (r : Request) (ups : List Upset) (s : State) :
    ∃ ups', exec (requestCommand k r ups) s = .next (s.event (fun t => t.takeRequest k r ups')) ∨
      exec (requestCommand k r ups) s = .next (s.plainEvent (fun t => t.takeRequest k r ups')) := by
  cases k
  case read | readOn | exchange => exact ⟨ups, .inl rfl⟩
  case write | cycleRecord | checkpointStatus | join | faultFrame | releaseFault | faultSets | clearAccrued | setAlertMask
      | status | readCommissioning => exact ⟨[], .inr rfl⟩
  all_goals exact ⟨[], .inl rfl⟩

theorem exec_requestCommand_turnsAway (hrec : s.link.phase = .receiving) (hjob : s.link.job = none)
    (hout : s.settledOutputs) (hsecond : s.link.second = none) (hstill : s.phase = .running → s.still)
    (h : s.linkRefusal k r = some st) :
    exec (requestCommand k r ups) s = .next (s.turnedAway k.code r.tag st) := by
  have htaken (ups') : s.takeRequest k r ups' = s.working.turnsAway k.code r.tag st :=
    (takeByte_of_receiving hrec hjob).trans (handleByte_of_linkRefusal (s := s.working) h)
  obtain ⟨ups', he | he⟩ := exec_requestCommand k r ups s
  · rw [he, event_turnsAway hout hjob hsecond hstill (htaken ups')]
  · rw [he, plainEvent_turnsAway hout (htaken ups')]

end LinkTests

/-! ### The lengths of bodies (R155) -/

section Lengths

variable {k : ReqKind} {body : List Byte} {a n : Nat}

/-- The length of the body of a kind whose body has one length. -/
def ReqKind.fixedLength : ReqKind → Option Nat
  | .read => some 4
  | .readOn | .restorePage | .join => some 1
  | .exchange => some 6
  | .fill => some 5
  | .close => some 3
  | .write | .cycleRecord | .setAlertMask | .writeCommissioning => none
  | _ => some 0

theorem fits_iff_of_fixedLength (h : k.fixedLength = some n) : k.fits body = true ↔ body.length = n := by
  cases k <;> cases h <;> exact beq_iff_eq

/-- A table of fixed lengths gives each kind in it the length of its body. -/
theorem fits_iff_of_mem {l : List (ReqKind × Nat)} (hl : ∀ x ∈ l, x.1.fixedLength = some x.2) (h : (k, n) ∈ l) :
    k.fits body = true ↔ body.length = n :=
  fits_iff_of_fixedLength (hl _ h)

/-- A body of `a` bytes and a list of whole four-byte items behind them. -/
theorem wholeItems_iff : (decide (a ≤ n) && (n - a) % 4 == 0) = true ↔ ∃ m, n = a + 4 * m := by
  simp only [Bool.and_eq_true, decide_eq_true_eq, beq_iff_eq]
  refine ⟨fun ⟨ha, hm⟩ => ⟨(n - a) / 4, by omega⟩, ?_⟩
  rintro ⟨m, rfl⟩
  omega

theorem fits_cycleRecord : ReqKind.cycleRecord.fits body = true ↔ body.length = 0 ∨ body.length = 2 := by
  simp only [ReqKind.fits, Bool.or_eq_true, beq_iff_eq]

end Lengths

/-- Settles O26: the request is turned away by the first test it fails, in an event that does nothing else. -/
theorem requestsThatFailTheLinkTestsHaveNoEffect : Obligations.RequestsThatFailTheLinkTestsHaveNoEffect := by
  refine ⟨fun s r hphase hrec hjob hout => ⟨fun kind x h => ?_, fun k ups x hsecond hstill h => ?_⟩,
    fun k n hmem body => fits_iff_of_mem (by decide) hmem,
    fun body => ⟨wholeItems_iff, wholeItems_iff, fits_cycleRecord, rfl⟩⟩
  · exact execUnknownKind_turnsAway hphase hrec hjob hout h
  · exact exec_requestCommand_turnsAway hrec hjob hout hsecond hstill ((linkRefusal_eq hphase).trans h)

end Sys2Proof.Machine
end

section
/-! The tests of a commissioning record in their order (R162), and LOCK COMMISSIONING with its mark (R165). -/

namespace Sys2Proof.Machine

/-! ### The tests of a record (R162) -/

/-- A failing rule that names one region. -/
def Failing.naming (k : FailingRule) (g : Region) : Failing := { rule := k, first := some g.number, second := none }

/-- The tests of the region table, orders 5 to 9 of R162: the first that fails decides. -/
def tableFailing (rs : List Region) : Option Failing :=
  ((rs.find? (badNumber rs)).map (Failing.naming .regionNumber)).or <|
  ((rs.find? badRange).map (Failing.naming .pageRange)).or <|
  ((overlapping rs).map fun p => { rule := .overlap, first := some p.1.number, second := some p.2.number }).or <|
  ((rs.find? badAttributes).map (Failing.naming .attributes)).or <|
  if rs.any (fun g => g.signed) then none else some { rule := .noSigned, first := none, second := none }

section Record

variable {x : CommRecord} {rs l m r : List Region} {g h : Region}

/-- Lane, station and region count pass. -/
abbrev HeadValid (x : CommRecord) : Prop :=
  (1 ≤ x.lane ∧ x.lane ≤ 3) ∧ x.station ≤ 4095 ∧ 1 ≤ x.regions.length ∧ x.regions.length ≤ 16

theorem length_between_iff : (1 ≤ rs.length ∧ rs.length ≤ 16) ↔ ¬ (rs = [] ∨ 16 < rs.length) := by
  rw [← List.length_eq_zero_iff]
  omega

theorem failingRecord_lane (hl : ¬ (1 ≤ x.lane ∧ x.lane ≤ 3)) :
    failingRecord x = some { rule := .lane, first := none, second := none } :=
  if_pos (by omega)

theorem failingRecord_station (hl : 1 ≤ x.lane ∧ x.lane ≤ 3) (hs : 4095 < x.station) :
    failingRecord x = some { rule := .station, first := none, second := none } :=
  (if_neg (by omega)).trans (if_pos hs)

theorem failingRecord_count (hl : 1 ≤ x.lane ∧ x.lane ≤ 3) (hs : x.station ≤ 4095)
    (hc : ¬ (1 ≤ x.regions.length ∧ x.regions.length ≤ 16)) :
    failingRecord x = some { rule := .regionCount, first := none, second := none } :=
  (if_neg (by omega)).trans ((if_neg (by omega)).trans (if_pos (not_not.mp (mt length_between_iff.mpr hc))))

/-- Behind those three the region table decides. -/
theorem failingRecord_table (hx : HeadValid x) : failingRecord x = tableFailing x.regions := by
  obtain ⟨hlane, hstation, hcount⟩ := hx
  refine (if_neg (by omega)).trans ((if_neg (by omega)).trans ((if_neg (length_between_iff.mp hcount)).trans ?_))
  unfold tableFailing
  cases x.regions.find? (badNumber x.regions) with
  | some g => rfl
  | none =>
  cases x.regions.find? badRange with
  | some g => rfl
  | none =>
  cases overlapping x.regions with
  | some p => rfl
  | none =>
  cases x.regions.find? badAttributes <;> rfl

/-! ### The tests of one entry as the rule words them -/

theorem badNumber_iff :
    badNumber rs g = true ↔ 15 < g.number ∨ 1 < (rs.filter (fun h => h.number = g.number)).length := by
  simp only [badNumber, Bool.or_eq_true, decide_eq_true_eq, beq_eq_decide]

theorem badRange_iff : badRange g = true ↔ g.last < g.first ∨ 255 < g.last := by
  simp only [badRange, Bool.or_eq_true, decide_eq_true_eq]

theorem shares_iff : shares g h = true ↔ g.first ≤ h.last ∧ h.first ≤ g.last := by
  simp only [shares, Bool.and_eq_true, decide_eq_true_eq]

theorem badAttributes_iff :
    badAttributes g = true ↔ (g.signed = true ∧ g.journalled = false) ∨
      (g.journalled = true ∧ g.checkpointed = false) ∨ (g.signed = true ∧ g.guarded = false) := by
  simp only [badAttributes, Bool.or_eq_true, Bool.and_eq_true, Bool.not_eq_true', or_assoc]

/-- The first entry that offends a test. -/
theorem find?_first {P : Region → Bool} {Q : Region → Prop} (hPQ : ∀ g, P g = true ↔ Q g) (hrs : rs = l ++ g :: r)
    (hl : ∀ h ∈ l, ¬ Q h) (hg : Q g) : rs.find? P = some g :=
  List.find?_eq_some_iff_append.mpr ⟨(hPQ g).mpr hg, l, r, hrs, fun h hh => by simpa [← hPQ] using hl h hh⟩

/-- A test that no entry offends. -/
theorem find?_none {P : Region → Bool} {Q : Region → Prop} (hPQ : ∀ g, P g = true ↔ Q g) (h : ∀ g ∈ rs, ¬ Q g) :
    rs.find? P = none :=
  List.find?_eq_none.mpr fun g hg => mt (hPQ g).mp (h g hg)

/-! ### Overlaps (log entry 22) -/

/-- Entries whose numbers pass are distinct: an entry that stood twice would have its number used twice. -/
theorem nodup_of_numbers (h : ∀ g ∈ rs, ¬ (15 < g.number ∨ 1 < (rs.filter (fun h => h.number = g.number)).length)) :
    rs.Nodup := by
  refine List.nodup_iff_count_le_one.mpr fun g => ?_
  by_cases hg : g ∈ rs
  · have hone : (rs.filter (fun h => h.number = g.number)).length ≤ 1 := Nat.le_of_not_lt fun hlt => h g hg (.inr hlt)
    rw [← List.countP_eq_length_filter] at hone
    refine le_trans (List.countP_mono_left fun y _ hy => ?_) hone
    rw [eq_of_beq hy]
    exact decide_eq_true rfl
  · rw [List.count_eq_zero_of_not_mem hg]
    exact Nat.zero_le 1

theorem overlapping_none (h : rs.Pairwise (fun y z => ¬ shares y z = true)) : overlapping rs = none := by
  induction rs with
  | nil => rfl
  | cons y rs ih =>
    obtain ⟨hy, hrs⟩ := List.pairwise_cons.mp h
    rw [overlapping, List.find?_eq_none.mpr hy]
    exact ih hrs

/-- The search passes over entries that share a page with no other entry. -/
theorem overlapping_append (hdup : (l ++ rs).Nodup) (h : ∀ y ∈ l, ∀ z ∈ l ++ rs, z ≠ y → ¬ shares y z = true) :
    overlapping (l ++ rs) = overlapping rs := by
  induction l with
  | nil => rfl
  | cons y l ih =>
    obtain ⟨hy, hdup⟩ := List.nodup_cons.mp hdup
    have hnone : (l ++ rs).find? (shares y) = none := List.find?_eq_none.mpr fun z hz =>
      h y List.mem_cons_self z (List.mem_cons_of_mem y hz) fun heq => hy (heq ▸ hz)
    rw [List.cons_append, overlapping, hnone]
    exact ih hdup fun w hw z hz => h w (List.mem_cons_of_mem y hw) z (List.mem_cons_of_mem y hz)

/-- The pair found: the first entry that meets another, and the first entry behind it that it meets. -/
theorem overlapping_first (hdup : rs.Nodup) (hrs : rs = l ++ g :: (m ++ h :: r))
    (hl : ∀ y ∈ l, ∀ z ∈ rs, z ≠ y → ¬ (y.first ≤ z.last ∧ z.first ≤ y.last))
    (hm : ∀ y ∈ m, ¬ (g.first ≤ y.last ∧ y.first ≤ g.last)) (hgh : g.first ≤ h.last ∧ h.first ≤ g.last) :
    overlapping rs = some (g, h) := by
  subst hrs
  rw [overlapping_append hdup fun y hy z hz hne => mt shares_iff.mp (hl y hy z hz hne), overlapping,
    find?_first (fun _ => shares_iff) rfl hm hgh]

/-! ### The order of the table's tests -/

theorem tableFailing_number (hnum : rs.find? (badNumber rs) = some g) :
    tableFailing rs = some (.naming .regionNumber g) := by
  rw [tableFailing, hnum]
  rfl

theorem tableFailing_range (hnum : rs.find? (badNumber rs) = none) (hrange : rs.find? badRange = some g) :
    tableFailing rs = some (.naming .pageRange g) := by
  rw [tableFailing, hnum, hrange]
  rfl

theorem tableFailing_overlap (hnum : rs.find? (badNumber rs) = none) (hrange : rs.find? badRange = none)
    (hmeet : overlapping rs = some (g, h)) :
    tableFailing rs = some { rule := .overlap, first := some g.number, second := some h.number } := by
  rw [tableFailing, hnum, hrange, hmeet]
  rfl

theorem tableFailing_attributes (hnum : rs.find? (badNumber rs) = none) (hrange : rs.find? badRange = none)
    (hmeet : overlapping rs = none) (hmarks : rs.find? badAttributes = some g) :
    tableFailing rs = some (.naming .attributes g) := by
  rw [tableFailing, hnum, hrange, hmeet, hmarks]
  rfl

theorem tableFailing_signed (hnum : rs.find? (badNumber rs) = none) (hrange : rs.find? badRange = none)
    (hmeet : overlapping rs = none) (hmarks : rs.find? badAttributes = none) :
    tableFailing rs = if rs.any (fun g => g.signed) then none
      else some { rule := .noSigned, first := none, second := none } := by
  rw [tableFailing, hnum, hrange, hmeet, hmarks]
  rfl

end Record

/-! ### LOCK COMMISSIONING (R165) -/

section Lock

variable {s : State} {r : Request} {tag : Byte}

/-- The lane states in which the record may be locked. -/
abbrev LaneState.lockable (x : LaneState) : Prop := x = .config ∨ x = .standby ∨ x = .forming ∨ x = .active

/-- The checks of a LOCK COMMISSIONING. -/
theorem onLock_working (s : State) (r : Request) :
    s.working.onLock r =
      if ¬ s.lane.state.lockable then s.working.refuse .lockCommissioning r.tag .wrongState
      else if s.comm.locked = true then s.working.refuse .lockCommissioning r.tag .ok
      else match testStored s.comm.stored with
        | .error f => s.working.invalidConfig .lockCommissioning r.tag f
        | .ok _ => (s.waiting (.lock r.tag)).ask .programLock := by
  simp only [LaneState.lockable, not_or]
  rfl

/-- A LOCK COMMISSIONING answered at once. -/
theorem execLock_answered {st : Status} {b : ReplyBody} (hstill : s.still) (hs : s.serves .lockCommissioning r)
    (h : s.working.onLock r = s.working.answer .lockCommissioning r.tag st b) (hst : st ≠ .starting) :
    exec (.lockCommissioning r) s = .next (s.replying .lockCommissioning r.tag st b) :=
  congrArg Host.Outcome.next (event_refused hs hstill h hst)

/-- A LOCK COMMISSIONING of a record that fails. -/
theorem execLock_invalid {f : Failing} (hstill : s.still) (hs : s.serves .lockCommissioning r)
    (hlane : s.lane.state.lockable) (hlock : s.comm.locked = false) (hf : testStored s.comm.stored = .error f) :
    exec (.lockCommissioning r) s =
      .next (s.replying .lockCommissioning r.tag .invalidConfig (.failingRule f.rule f.first f.second)) := by
  have hon := onLock_working s r
  rw [if_neg (not_not_intro hlane), hlock, if_neg Bool.false_ne_true, hf] at hon
  exact execLock_answered hstill hs hon (by decide)

/-- A LOCK COMMISSIONING of a valid record: on a free controller the mark's program begins, and the request waits for it. -/
theorem execLock_accepted {x : CommRecord} (hstill : s.still) (hs : s.serves .lockCommissioning r)
    (hlane : s.lane.state.lockable) (hlock : s.comm.locked = false) (hx : testStored s.comm.stored = .ok x)
    (hop : s.ctl.op = none) :
    exec (.lockCommissioning r) s =
      .next ((s.setCtl { s.ctl with op := some .programLock }).waiting (.lock r.tag)) := by
  have ⟨_, _, _, _, ⟨_, hquiet⟩, _⟩ := hs
  have hon := onLock_working s r
  rw [if_neg (not_not_intro hlane), hlock, if_neg Bool.false_ne_true, hx] at hon
  have hask := ask_of_free (s := s.waiting (.lock r.tag)) (o := .programLock) hop (by decide)
  exact congrArg Host.Outcome.next
    (event_wait (ups := []) hs (hon.trans hask) hquiet rfl rfl (still_setLink.mpr hstill) rfl rfl rfl rfl)

/-! ### The end of the lock mark's program -/

/-- The part once the job of LOCK COMMISSIONING has ended at a controller with nothing else to do, with its mark as `l`. -/
def State.lockOver (s : State) (l : Field Unit) (locked : Bool) : State :=
  { s with
    array := { s.array with lock := l }, comm := { s.comm with locked := locked }
    ctl := { s.ctl with op := none }, link := { s.link with job := none } }

theorem execLockMark_eq (hop : s.ctl.op = some .programLock) (left : Option (Field Unit)) :
    exec (.lockMarkProgrammed left) s = .next (s.event (fun t => t.lockDone left)) := by
  change execLockMarkProgrammed left s = _
  simp only [execLockMarkProgrammed, hop]

/-- A mark whose program has failed counts as not programmed, whatever its area reads as. -/
theorem faultedLock_of_used {l : Field Unit} (h : l ≠ .erased) : faultedLock l = .damaged := by
  cases l with
  | erased => exact absurd rfl h
  | damaged => rfl
  | whole v => rfl

/-- The mark reads back as written. -/
theorem lockDone_fine (hjob : s.link.job = some (.lock tag)) (hs : s.ctl.suspended = none) (hw : s.ctl.waiting = [])
    (hblank : s.array.lock = .erased) :
    s.lockDone none = (s.lockOver (.whole ()) true).answer .lockCommissioning tag .ok .empty := by
  have hprog : programField s.array.lock () none = (.whole (), false) := by rw [hblank]; rfl
  unfold State.lockDone
  rw [hprog]
  dsimp only
  rw [if_neg Bool.false_ne_true, if_neg Bool.false_ne_true, opEnded_of_alone (by exact hw) (by exact hs)]
  simp only [State.setCtl_link, State.setComm_link, State.setArray_link, hjob]
  rfl

/-- The mark's program ends in a fault. -/
theorem lockDone_faulted {left : Option (Field Unit)} (hjob : s.link.job = some (.lock tag)) (hs : s.ctl.suspended = none)
    (hw : s.ctl.waiting = []) (hfault : s.array.lock ≠ .erased ∨ (left ≠ none ∧ left ≠ some (.whole ()))) :
    s.lockDone left =
      (s.lockOver .damaged s.comm.locked).answer .lockCommissioning tag .invalidConfig (.failingRule .array none none) := by
  have hbad : (programField s.array.lock () left).2 = true := by
    rw [← Bool.not_eq_false, programField_fine]
    tauto
  have hused := faultedLock_of_used (programField_used s.array.lock () left)
  unfold State.lockDone
  dsimp only
  rw [hbad, if_pos rfl, if_pos rfl, hused, opEnded_of_alone (by exact hw) (by exact hs)]
  simp only [State.setCtl_link, State.setArray_link, hjob]
  rfl

end Lock

/-- Settles O58: the tests of a record, then the request's checks, then the mark's program with and without an array fault. -/
theorem recordsAreTestedInOrderAndLocked : Obligations.RecordsAreTestedInOrderAndLocked := by
  refine ⟨?record, fun s r tag hstill => ⟨fun hs => ?request, fun hready hjob hlive hop hsusp hwait => ?mark⟩⟩
  case record =>
    intro x fails lane count badNum badRng meet badMarks clear
    have hnumbers : (∀ y ∈ x.regions, ¬ badNum y) → x.regions.find? (badNumber x.regions) = none :=
      find?_none fun _ => badNumber_iff
    have hranges : (∀ y ∈ x.regions, ¬ badRng y) → x.regions.find? badRange = none := find?_none fun _ => badRange_iff
    have hmeets : x.regions.Pairwise (fun y z => ¬ meet y z) → overlapping x.regions = none := fun h =>
      overlapping_none (h.imp fun hyz => mt shares_iff.mp hyz)
    refine ⟨failingRecord_lane, failingRecord_station, failingRecord_count, fun l g r hx hrs hl hg => ?_,
      fun l g r hx hnum hrs hl hg => ?_, fun l g m h r hx hpass hrs hl hm hgh => ?_,
      fun l g r hx hpass hpair hrs hl hg => ?_, fun hx hpass hpair => ?_⟩
    · exact (failingRecord_table hx).trans (tableFailing_number (find?_first (fun _ => badNumber_iff) hrs hl hg))
    · exact (failingRecord_table hx).trans
        (tableFailing_range (hnumbers hnum) (find?_first (fun _ => badRange_iff) hrs hl hg))
    · have hnum : ∀ y ∈ x.regions, ¬ badNum y := fun y hy => (hpass y hy).1
      exact (failingRecord_table hx).trans (tableFailing_overlap (hnumbers hnum) (hranges fun y hy => (hpass y hy).2)
        (overlapping_first (nodup_of_numbers hnum) hrs hl hm hgh))
    · exact (failingRecord_table hx).trans (tableFailing_attributes (hnumbers fun y hy => (hpass y hy).1)
        (hranges fun y hy => (hpass y hy).2) (hmeets hpair) (find?_first (fun _ => badAttributes_iff) hrs hl hg))
    · have hmarks : x.regions.find? badAttributes = none :=
        find?_none (fun _ => badAttributes_iff) fun y hy => (hpass y hy).2.2
      have htable := (failingRecord_table hx).trans (tableFailing_signed (hnumbers fun y hy => (hpass y hy).1)
        (hranges fun y hy => (hpass y hy).2.1) (hmeets hpair) hmarks)
      refine ⟨fun hunsigned => htable.trans (if_neg ?_), fun hsigned => htable.trans (if_pos (List.any_eq_true.mpr hsigned))⟩
      simpa using hunsigned
  case request =>
    have hon := onLock_working s r
    refine ⟨fun hlane => ?_, fun hlane hlock => ?_, fun hlane hlock hx => ?_, fun x k e hlane hlock hx he => ?_,
      fun x k hlane hlock hx hvalid hop => ?_⟩
    · exact execLock_answered hstill hs (hon.trans (if_pos hlane)) (by decide)
    · exact execLock_answered hstill hs (hon.trans ((if_neg (not_not_intro hlane)).trans (if_pos hlock))) (by decide)
    · refine execLock_invalid (f := { rule := .noRecord, first := none, second := none }) hstill hs hlane hlock ?_
      rcases hx with hx | hx <;> rw [hx] <;> rfl
    · exact execLock_invalid hstill hs hlane hlock (by simp only [hx, testStored, he])
    · exact execLock_accepted (x := x) hstill hs hlane hlock (by simp only [hx, testStored, hvalid]) hop
  case mark =>
    obtain ⟨-, ⟨hlines, hquiet⟩, hsecond, -⟩ := hready
    refine ⟨fun hblank => ?_, fun left hfault => ?_⟩
    · have hsettled : ((s.lockOver (.whole ()) true).answer .lockCommissioning tag .ok .empty).settled :=
        settle_of_still (still_setLink.mpr hstill)
      exact (execLockMark_eq hop none).trans (congrArg Host.Outcome.next
        (event_answered (f := fun t => t.lockDone none) (lockDone_fine hjob hsusp hwait hblank) hsettled ⟨hsecond, rfl⟩ hlive
          (by decide) hquiet.notes_eq))
    · exact (execLockMark_eq hop left).trans (congrArg Host.Outcome.next
        ((event_answered_same (f := fun t => t.lockDone left) (lockDone_faulted hjob hsusp hwait hfault) hstill
          ⟨hsecond, rfl⟩ (by decide) hquiet hlines).trans (if_pos hlive)))

end Sys2Proof.Machine
end

section
/-! The queue of waiting commands, and the words that spell none (log entries 1 and 2). -/

namespace Sys2Proof.Machine

section Front

variable {s : State}

theorem step_of_pending_nil (h : s.pending = []) : step s = .next s := by
  unfold step
  rw [h]

theorem step_of_pending_cons {c : Instr} {rest : List Instr} (h : s.pending = c :: rest) :
    step s = exec c (s.setPending rest) := by
  unfold step
  rw [h]

/-- A word that spells no command puts none into the queue. -/
theorem withFetchWord_of_none {nbits w : Nat} (h : decodeTableWord nbits w = none) : s.withFetchWord nbits w = s := by
  unfold State.withFetchWord
  rw [h]

end Front

/-- The opcode table gives no row any bits. -/
theorem decodeTableWord_eq_none (nbits w : Nat) : decodeTableWord nbits w = none := rfl

/-- Settles O13: a waiting command is taken with the queue's rest. -/
theorem stepRunsTheFrontCommand : Obligations.StepRunsTheFrontCommand := fun _ _ _ => step_of_pending_cons

/-- Settles O14: an empty queue has no front, and a word that spells no command puts none there. -/
theorem emptyQueueIdlesAndWordsSpellNothing : Obligations.EmptyQueueIdlesAndWordsSpellNothing :=
  ⟨fun _ => step_of_pending_nil, fun nbits w =>
    ⟨decodeTableWord_eq_none nbits w, fun _ => withFetchWord_of_none (decodeTableWord_eq_none nbits w)⟩⟩

end Sys2Proof.Machine
end

section
/-! The canonical form of the image store and of the page state table (log entry 38): the operations of the store and of the
pages keep it, and what an event changes elsewhere leaves both tables alone. -/

namespace Sys2Proof.Machine

/-- The image store and the page state table have their canonical form. An update of another field keeps this by
definition. -/
def State.TablesWf (s : State) : Prop := s.imageWf = true ∧ s.pagesWf = true

namespace State.TablesWf

variable {s t : State}

theorem ite {c : Prop} [Decidable c] (h : s.TablesWf) (h' : t.TablesWf) : (if c then s else t).TablesWf := by
  split_ifs <;> assumption

/-! ### The image store and the page state table (R1, R4) -/

section Tables

variable (h : s.TablesWf)
include h

theorem setImage {m : List (Nat × Option StoredCell)} (hm : tabWf none m = true) : (s.setImage m).TablesWf := ⟨hm, h.2⟩

theorem setPages {m : List (Nat × PageRec)} (hm : tabWf PageRec.fresh m = true) : (s.setPages m).TablesWf := ⟨h.1, hm⟩

theorem writeCell (a : Nat) (v : Word) : (s.writeCell a v).TablesWf := h.setImage (imageWf_writeCell a v h.1)

theorem writeRun (a : Nat) (vs : List Word) : (s.writeRun a vs).TablesWf := by
  rw [writeRun_eq]
  exact h.setImage (imageWf_writeRun a vs h.1)

theorem strike (us : List Upset) : (s.strike us).TablesWf := by
  rw [strike_eq_setImage]
  exact h.setImage (imageWf_strike us h.1)

/-- A check rewrites the cells that it corrects. -/
theorem checked (skip : Nat → Bool) (a : Nat) : (s.checked skip a).TablesWf := ite (h.writeCell _ _) h

omit h in
theorem scanCells (skip : Nat → Bool) (p : Nat) (os : List Nat) (h : s.TablesWf) (r : Scan) :
    (scanCells skip p os s r).1.TablesWf := by
  induction os generalizing s r with
  | nil => exact h
  | cons o os ih =>
    obtain ⟨r', hstep, -, -⟩ := scanCells_cons (skip := skip) (p := p) o os s r
    rw [hstep]
    exact ih (h.checked skip _) r'

theorem scanPage (skip : Nat → Bool) (p : Nat) : (scanPage skip p s).1.TablesWf := h.scanCells skip p _ _

omit h in
theorem tornWrites (bs : List Bool) (ws : List (Nat × Word)) (h : s.TablesWf) : (tornWrites bs ws s).TablesWf := by
  induction bs generalizing s ws with
  | nil => exact h
  | cons b bs ih =>
    cases ws with
    | nil => exact h
    | cons w ws => exact ih ws (ite (h.writeCell _ _) h)

omit h in
theorem replayOver (p : Nat) (rs : List JournalRecord) (h : s.TablesWf) : (replayOver s p rs).TablesWf := by
  induction rs generalizing s with
  | nil => exact h
  | cons r rs ih => exact ite (ih (h.writeRun _ _)) (ih h)

theorem mapPage (p : Nat) (f : PageRec → PageRec) : (s.mapPage p f).TablesWf := h.setPages (pagesWf_putPage _ _ h.2)

theorem mapPages (f : PageRec → PageRec) (ps : List Nat) : (s.mapPages f ps).TablesWf := by
  rw [mapPages_eq]
  exact h.setPages (pagesWf_mapPages f ps h.2)

end Tables

/-! ### Updates that leave both tables alone -/

section Elsewhere

variable (h : s.TablesWf)
include h

theorem setNotes (x : Notes) : (s.setNotes x).TablesWf := h
theorem setLink (x : Link) : (s.setLink x).TablesWf := h
theorem setQueue (x : Queue) : (s.setQueue x).TablesWf := h
theorem setPatrol (x : Patrol) : (s.setPatrol x).TablesWf := h
theorem setFaults (x : FaultStore) : (s.setFaults x).TablesWf := h
theorem setPending (x : List Instr) : (s.setPending x).TablesWf := h
theorem setJournal (x : Journal) : (s.setJournal x).TablesWf := h
theorem setSuspects (x : List Nat) : (s.setSuspects x).TablesWf := h
theorem setSign (x : SignUnit) : (s.setSign x).TablesWf := h
theorem setLane (x : LaneUnit) : (s.setLane x).TablesWf := h
theorem setPorts (x : Ports) : (s.setPorts x).TablesWf := h
theorem setArray (x : RetArray) : (s.setArray x).TablesWf := h
theorem setCtl (x : Controller) : (s.setCtl x).TablesWf := h
theorem setCkpt (x : Checkpoint) : (s.setCkpt x).TablesWf := h
theorem setRest (x : Restore) : (s.setRest x).TablesWf := h
theorem setXfer (x : Transfer) : (s.setXfer x).TablesWf := h
theorem setComm (x : Commissioning) : (s.setComm x).TablesWf := h

end Elsewhere

/-! ### Raises, lane moves and the end of an event -/

section Raises

variable (h : s.TablesWf)
include h

theorem hand (p : PortId) (f : LaneFrame) : (s.hand p f).TablesWf := by
  rw [hand_eq]
  exact h

theorem handBoth (f : LaneFrame) : (s.handBoth f).TablesWf := (h.hand .one f).hand .two f

theorem handPartner (f : LaneFrame) : (s.handPartner f).TablesWf := by
  rw [handPartner_eq_setPorts]
  exact h

theorem placeFrame (f : FaultFrame) : (s.placeFrame f).TablesWf := by
  obtain ⟨_, _, _, heq⟩ := placeFrame_eq s f
  rw [heq]
  exact h

theorem raiseCore (k : FaultKind) (w : Nat) : (s.raiseCore k w).TablesWf := by
  rw [raiseCore_eq]
  exact h

theorem sameLane (ht : t.SameLane s) : t.TablesWf := by
  obtain ⟨_, rfl, -, -⟩ := ht
  exact h

theorem retireClose : s.retireClose.TablesWf := h.sameLane (.retireClose s)

theorem releaseHold : s.releaseHold.TablesWf := h.sameLane (.releaseHold s)

theorem dropVote : s.dropVote.TablesWf := h.sameLane (.dropVote s)

theorem clearTransfer : s.clearTransfer.TablesWf := h

theorem donationOver (abort : Option Reason) : (s.donationOver abort).TablesWf := by
  have hfreed : (s.aborted abort).clearTransfer.TablesWf := by
    rw [aborted_eq_setPorts]
    exact h
  rw [donationOver_cases]
  exact ite hfreed.releaseHold hfreed

theorem shiftLane (x : LaneState) : (s.shiftLane x).TablesWf := by
  unfold State.shiftLane
  extract_lets was _ _ s1 s2 s3 _ s4
  have h2 : s2.TablesWf := ite h h
  have h3 : s3.TablesWf := ite h2.dropVote h2
  have h4 : s4.TablesWf := ite h3 h3
  exact ite h (ite (((h4.donationOver _).raiseCore _ _).placeFrame _) h4)

theorem selfWithdraw : s.selfWithdraw.TablesWf := ((h.raiseCore _ _).setNotes _).shiftLane _

theorem moveLane (x : LaneState) : (s.moveLane x).TablesWf := ite h (ite (h.shiftLane x).selfWithdraw (h.shiftLane x))

theorem raise (k : FaultKind) (w : Nat) : (s.raise k w).TablesWf :=
  ite (h.raiseCore k w).selfWithdraw (h.raiseCore k w)

omit h in
theorem raiseTimes (k : FaultKind) (w n : Nat) (h : s.TablesWf) : (s.raiseTimes k w n).TablesWf := by
  induction n generalizing s with
  | zero => exact h
  | succ n ih => exact ih (h.raise k w)

theorem raiseCorrected (n : Nat) : (s.raiseCorrected n).TablesWf := ite h (h.raise _ _)

theorem endDonation (abort : Option Reason) (page : Option Nat) (retry : Nat) (why : Reason) :
    (s.endDonation abort page retry why).TablesWf := ((h.donationOver abort).raise _ _).placeFrame _

theorem endReception (abort : Bool) (page : Option Nat) (why : Reason) : (s.endReception abort page why).TablesWf := by
  unfold State.endReception
  extract_lets s1 s2 s3
  have h1 : s1.TablesWf := ite (h.handPartner _) h
  have h3 : s3.TablesWf := (h1.clearTransfer.raise _ _).placeFrame _
  exact ite (h3.moveLane _) h3

theorem frameOwed : s.frameOwed.TablesWf := ite (h.placeFrame _) h

theorem buildReply : s.buildReply.TablesWf := by
  unfold State.buildReply
  split
  · exact h
  · exact ite h h

theorem tellState : s.tellState.TablesWf := ite (h.handBoth _) h

theorem eventOver : s.eventOver.TablesWf := h.frameOwed.tellState

theorem closeEvent : s.closeEvent.TablesWf := h.frameOwed.buildReply.tellState

end Raises

end State.TablesWf
end Sys2Proof.Machine
end

section
/-! The blocks within an event keep the canonical form of the tables: the drain, the checkpoint, restore and transfer engines. -/

namespace Sys2Proof.Machine
namespace State.TablesWf

variable {s t : State}

/-! ### Findings, and the drain (R5, R25, R27, R42, R44) -/

section Store

variable (h : s.TablesWf)
include h

theorem lostReceived (p : Nat) : (s.lostReceived p).TablesWf := by
  unfold State.lostReceived
  split
  · exact ite ((h.setXfer _).handPartner _) h
  · exact h

theorem makeSuspect (p : Nat) : (s.makeSuspect p).TablesWf := ite ((h.mapPage _ _).lostReceived _) h

theorem offerRestore (p : Nat) : (s.offerRestore p).TablesWf := ite h (ite ((h.raise _ _).placeFrame _) h)

theorem offerSuspect (p o : Nat) : (offerSuspect p o s).1.TablesWf := by
  unfold Machine.offerSuspect
  split_ifs
  · exact h
  · exact h
  · exact h
  · exact h.mapPage _ _

omit h in
theorem offerSuspects (p : Nat) (os : List Nat) (h : s.TablesWf) : (offerSuspects p os s).1.TablesWf := by
  induction os generalizing s with
  | nil => exact h
  | cons o os ih => exact ih (h.offerSuspect p o)

theorem handOn (p : Nat) (r : Scan) : (s.handOn p r).TablesWf := by
  unfold State.handOn
  extract_lets o full s1 s2 s3 s4 s5 s6
  have h1 : s1.TablesWf := h.offerSuspects p r.bad
  have h2 : s2.TablesWf := ite h1 (h1.makeSuspect p)
  have h3 : s3.TablesWf := ite (h2.offerRestore p) h2
  have h4 : s4.TablesWf := ite h3 (h3.raise _ _)
  have h5 : s5.TablesWf := h4.raiseTimes _ _ _
  have h6 : s6.TablesWf := ite (h5.raise _ _) h5
  exact ite h6 (h6.placeFrame _)

theorem journalBreaks (p : Nat) (why : Reason) : (s.journalBreaks p why).TablesWf :=
  ((h.setJournal _).raise _ _).placeFrame _

theorem addRecord (e : Entry) : (s.addRecord e).TablesWf := ite ((h.setJournal _).raise _ _) h

theorem journalAppend (e : Entry) : (s.journalAppend e).TablesWf := by
  unfold State.journalAppend
  extract_lets j
  refine ite h (ite ((h.setJournal _).journalBreaks _ _) (ite (h.addRecord e) ?_))
  split
  · exact h.journalBreaks _ _
  · exact ite ((h.setJournal _).addRecord e) (h.journalBreaks _ _)

theorem drainPage (e : Entry) : (s.drainPage e).TablesWf := ((h.writeRun _ _).setSuspects _).mapPage _ _

theorem resendIfSent (p : Nat) : (s.resendIfSent p).TablesWf := ite h h

theorem drainHead : s.drainHead.TablesWf := by
  unfold State.drainHead
  split
  · exact h
  · next e _ _ =>
    refine ite h ?_
    extract_lets s1 s2 s3
    have h2 : s2.TablesWf := ite ((h.drainPage e).journalAppend e) (h.drainPage e)
    exact ((h2.resendIfSent _).lostReceived _).setQueue _

/-! ### The array controller -/

theorem startOp (o : ArrayOp) : (s.startOp o).TablesWf := ite h h

theorem nextOp : s.nextOp.TablesWf := by
  unfold State.nextOp
  split
  · exact (h.setCtl _).startOp _
  · split
    · exact h
    · split
      · exact (h.setCtl _).startOp _
      · exact h

theorem ask (o : ArrayOp) : (s.ask o).TablesWf := by
  unfold State.ask
  split
  · exact h.startOp o
  · exact ite h h

theorem opEnded : s.opEnded.TablesWf := (h.setCtl _).nextOp

theorem opEndedAsking (o : ArrayOp) : (s.opEndedAsking o).TablesWf := (h.setCtl _).nextOp

/-! ### The checkpoint engine (R98 to R107) -/

theorem abandonCheckpoint : s.abandonCheckpoint.TablesWf :=
  ((((h.mapPages _ _).setCkpt _).setJournal _).setCtl _).ask _

theorem failCheckpoint (p : Option Nat) (why : Reason) : (s.failCheckpoint p why).TablesWf :=
  (h.abandonCheckpoint.raise _ _).placeFrame _

theorem sourceFault : s.sourceFault.TablesWf := by
  refine ite ?_ h
  split
  · exact h
  · exact h.failCheckpoint _ _

theorem passUnset : s.passUnset.TablesWf := ite ((h.mapPages _ _).setCkpt _) h

theorem nextProgram : s.nextProgram.TablesWf := by
  refine ite ?_ h
  split
  · exact (h.setCkpt _).ask _
  · exact ite ((h.setCkpt _).ask _) h

theorem preErase (slot : SlotId) : (s.preErase slot).TablesWf := (h.setCkpt _).ask _

theorem startPreErase : s.startPreErase.TablesWf := ite (h.preErase _) h

theorem clearHold : s.clearHold.TablesWf := ite (ite ((h.setCkpt _).preErase _) (h.setCkpt _).startPreErase) h

theorem openSnapshot (n : Half) : (s.openSnapshot n).TablesWf := by
  unfold State.openSnapshot
  extract_lets _ s1 _ s2 _ s3 _ _ s4
  have h1 : s1.TablesWf := h.mapPages _ _
  have h2 : s2.TablesWf := h1.setJournal _
  have h3 : s3.TablesWf := ite h2 h2
  exact (h3.setCkpt _).ask _

theorem passUnsetBelow (p : Nat) : (s.passUnsetBelow p).TablesWf := (h.mapPages _ _).setCkpt _

theorem captureGrant (ups : List Upset) : (s.captureGrant ups).TablesWf := by
  unfold State.captureGrant
  split
  · exact h
  · next p forced _ =>
    extract_lets s1 x s2 r s3 _ s4
    have h1 : s1.TablesWf := ite h (h.passUnsetBelow p)
    have h2 : s2.TablesWf := (h1.strike ups).scanPage _ _
    have h4 : s4.TablesWf := (h2.mapPage _ _).setCkpt _
    exact ite (h4.raiseCorrected _) (h2.handOn _ _)

theorem completeCheckpoint : s.completeCheckpoint.TablesWf := ((h.setCkpt _).setJournal _).mapPages _ _

/-! ### The restore engine (R6, R112 to R122) -/

theorem clearSuspects (p : Nat) : (s.clearSuspects p).TablesWf := h

theorem beginRestore (p : Nat) : (s.beginRestore p).TablesWf := ((h.mapPage _ _).clearSuspects _).lostReceived _

theorem failPageRestore (p : Nat) (slot : Option SlotId) (why : Reason) : (s.failPageRestore p slot why).TablesWf :=
  (((h.mapPage _ _).setRest _).raise _ _).placeFrame _

theorem startPageRestore (p : Nat) : (s.startPageRestore p).TablesWf := by
  have hbegun := h.beginRestore p
  unfold State.startPageRestore
  extract_lets s1
  split
  · exact ite ((hbegun.setRest _).ask _) (hbegun.failPageRestore _ _ _)
  · exact hbegun.failPageRestore _ _ _

omit h in
theorem takeRestores (n : Nat) (h : s.TablesWf) : (takeRestores n s).TablesWf := by
  induction n generalizing s with
  | zero => exact h
  | succ n ih =>
    refine ite h ?_
    split
    · exact h
    · exact ite (ih ((h.setRest _).startPageRestore _)) (ih (h.setRest _))

theorem restoresTake : s.restoresTake.TablesWf := h.takeRestores _

/-- A page written from its record, and left in the state given. -/
theorem restored (p : Nat) (cells : List Word) (rs : List JournalRecord) (st : PageState) :
    ((Machine.replayOver (s.writeRun (cellAddr p 0) cells) p rs).leaveRestored p st).TablesWf :=
  ((h.writeRun _ _).replayOver _ _).mapPage _ _

theorem pageRestoreGrant (p : Nat) (slot : SlotId) (g : Option Word) (cells : List Word) :
    (s.pageRestoreGrant p slot g cells).TablesWf := by
  unfold State.pageRestoreGrant
  split
  · exact h.failPageRestore _ _ _
  · refine ite (h.failPageRestore _ _ _) (ite ((h.setRest _).ask _) ?_)
    split
    · exact (h.setRest _).restored p cells _ _
    · exact (h.setRest _).restored p cells [] _
    · exact (h.setRest _).restored p cells [] _
    · exact h.failPageRestore _ _ _

theorem endImage (i : ImageRestore) : (s.endImage i).TablesWf := by
  unfold State.endImage
  split
  · exact h
  · exact ((h.setRest _).raise _ _).placeFrame _

theorem imageGoesOn (i : ImageRestore) : (s.imageGoesOn i).TablesWf := by
  unfold State.imageGoesOn
  split
  · exact h.endImage i
  · exact (h.setRest _).ask _

theorem imageFails (i : ImageRestore) (p : Nat) (why : Reason) : (s.imageFails i p why).TablesWf :=
  (h.mapPage _ _).imageGoesOn _

theorem imageRestoreGrant (i : ImageRestore) (cells : List Word) : (s.imageRestoreGrant i cells).TablesWf := by
  unfold State.imageRestoreGrant
  split
  · exact h.endImage i
  · next p _ _ =>
    have hw := h.writeRun (cellAddr p 0) cells
    exact ite (h.imageGoesOn _) (((ite (hw.replayOver _ _) hw).mapPage _ _).imageGoesOn _)

/-! ### The transfer engine (R128 to R132) -/

theorem beginPass : s.beginPass.TablesWf := ite (h.endDonation _ _ _ _) h

theorem passTest : s.passTest.TablesWf := ite (ite h.beginPass h) h

theorem sendFinal : s.sendFinal.TablesWf := by
  unfold State.sendFinal
  split
  · exact h
  · exact ite (h.handPartner _).clearTransfer.releaseHold h

theorem abandonClosingPass : s.abandonClosingPass.TablesWf := (h.setXfer _).releaseHold.beginPass

theorem transferOutGrant (ups : List Upset) : (s.transferOutGrant ups).TablesWf := by
  unfold State.transferOutGrant
  split
  · exact h
  · extract_lets closing _ s1 owe x s2 _ s3 s4 s5
    have h1 : s1.TablesWf := ite h h
    have hx : x.1.TablesWf := (h1.strike ups).scanPage _ _
    have h3 : s3.TablesWf := (hx.handPartner _).setXfer _
    have h4 : s4.TablesWf := (hx.setXfer _).handOn _ _
    have h5 : s5.TablesWf := h1.setXfer _
    exact ite (ite (h3.raiseCorrected _) (ite h4.abandonClosingPass h4)) (ite h5.abandonClosingPass h5)

theorem transferInGrant (x : InPage) (rest : List InPage) : (s.transferInGrant x rest).TablesWf :=
  (((h.writeRun _ _).clearSuspects _).mapPage _ _).setXfer _

end Store

end State.TablesWf
end Sys2Proof.Machine
end

section
/-! The lane and the host's requests keep the canonical form of the tables: votes, closes, join checks, reads, fills and the other
handlers. -/

namespace Sys2Proof.Machine
namespace State.TablesWf

variable {s t : State}

section Agreement

variable (h : s.TablesWf)
include h

/-! ### Votes (R77 to R83) -/

theorem mapPeers (f : Peer → Peer) : (s.mapPeers f).TablesWf := h

theorem writeDecision (c : Close) (byExpiry : Bool) (brought : Option PortId) (out : VoteOutcome) :
    (s.writeDecision c byExpiry brought out).TablesWf := by
  unfold State.writeDecision
  extract_lets one two _ s1 s2 s3
  have h2 : s2.TablesWf := ite h h
  have h3 : s3.TablesWf := ite h2 h2
  exact ite (h3.mapPeers _) h3

theorem raiseDecision (out : VoteOutcome) (n : Nat) : (s.raiseDecision out n).TablesWf := by
  have hsilent := h.raiseTimes .peerSilent FaultKind.peerSilent.weight n
  unfold State.raiseDecision
  extract_lets s1
  split
  · exact (hsilent.raise _ _).placeFrame _
  · exact ite (hsilent.placeFrame _) (ite (hsilent.placeFrame _) hsilent)

theorem decideVote (byExpiry : Bool) (brought : Option PortId) (out : VoteOutcome) :
    (s.decideVote byExpiry brought out).TablesWf := by
  unfold State.decideVote
  split
  · exact h
  · extract_lets was silent s1 s2 s3 _ s4
    have h3 : s3.TablesWf := ((h.writeDecision _ _ _ _).moveLane _).raiseDecision _ _
    have h4 : s4.TablesWf := ite h3 h3
    exact (h4.mapPeers _).retireClose

theorem testVote : s.testVote.TablesWf := by
  unfold State.testVote
  split
  · exact h
  · exact ite (h.decideVote _ _ _) h

theorem activePeerSeen (brought : Option PortId) : (s.activePeerSeen brought).TablesWf :=
  ite (h.decideVote _ _ _) (h.moveLane _)

theorem expireVote : s.expireVote.TablesWf := by
  unfold State.expireVote
  split
  · exact h
  · exact h.decideVote _ _ _

/-! ### The steps of a close (R55 to R60) -/

theorem abstains : s.abstains.TablesWf := by
  have hcounted := (h.raise .abstained FaultKind.abstained.weight).setLane
    { (s.raise .abstained FaultKind.abstained.weight).lane with
      abstain := min 7 ((s.raise .abstained FaultKind.abstained.weight).lane.abstain + 1) }
  exact ite hcounted.selfWithdraw hcounted

theorem recordAndAnnounce (c : Close) (sig : Option Word) (regions : Option (List (Nat × Word))) :
    (s.recordAndAnnounce c sig regions).TablesWf := by
  unfold State.recordAndAnnounce
  extract_lets r _ s1 s2 _ s3
  have h1 : s1.TablesWf := h
  have h3 : s3.TablesWf := (h1.handBoth _).setLane _
  exact ite h3.testVote h1

theorem checkpointStep (c : Close) (completed : Bool) : (s.checkpointStep c completed).TablesWf :=
  ite ((h.openSnapshot _).setLane _) h

theorem closingStep (completed : Bool) : (s.closingStep completed).TablesWf := by
  unfold State.closingStep
  split
  · exact h
  · exact ite ((h.setXfer _).setLane _) (ite h.beginPass h).releaseHold

theorem endPass (stop : Option StopCause) (fa : Bool) : (s.endPass stop fa).TablesWf := by
  unfold State.endPass
  split
  · exact h
  · extract_lets completed sig regions s1 _ s2
    have h1 : s1.TablesWf := by cases stop <;> exact h
    have h2 : s2.TablesWf := ite (ite (h1.setLane _) h1.abstains) h1
    exact ((h2.recordAndAnnounce _ _ _).checkpointStep _ _).closingStep _

theorem feedPage (c : Half) (st : SignStep) (vs : List Word) : (s.feedPage c st vs).TablesWf := ite h h

/-- A grant that checks a page to be signed and feeds its cells. -/
theorem pageSigned (ups : List Upset) (p n : Nat) (c : Half) (st : SignStep) (vs : List Word) :
    (((Machine.scanPage (fun _ => false) p (s.strike ups)).1.feedPage c st vs).raiseCorrected n).TablesWf :=
  (((h.strike ups).scanPage _ p).feedPage c st vs).raiseCorrected n

theorem signatureGrant (ups : List Upset) : (s.signatureGrant ups).TablesWf := by
  unfold State.signatureGrant
  split
  · next c st rest _ _ =>
    have hfed := h.pageSigned ups st.page (Machine.scanPage (fun _ => false) st.page (s.strike ups)).2.corrected c.cycle st
      (Machine.scanPage (fun _ => false) st.page (s.strike ups)).2.values
    exact ite (ite (ite (hfed.endPass _ _) hfed) ((((h.strike ups).scanPage _ _).handOn _ _).endPass _ _))
      (h.endPass _ _)
  · exact h

theorem beginClosePass : s.beginClosePass.TablesWf := by
  unfold State.beginClosePass
  split
  · exact h
  · exact ite (ite (((h.setLane _).setSign _).endPass _ _) h) h

/-! ### The check of a JOIN-FINAL (R135, R136) -/

theorem joinCompletes (c : Half) : (s.joinCompletes c).TablesWf := ((h.clearTransfer.setLane _).setJournal _).moveLane _

theorem finishCheck : s.finishCheck.TablesWf := by
  unfold State.finishCheck
  split
  · exact h
  · split
    · exact h.endReception _ _ _
    · exact ite (h.joinCompletes _) (h.endReception _ _ _)

theorem beginCheck : s.beginCheck.TablesWf := by
  unfold State.beginCheck
  split
  · exact h
  · refine ite ?_ h
    split
    · exact h.endReception _ _ _
    · exact ite ((h.setXfer _).setSign _).finishCheck h

theorem stopCheck (why : StopCause) (p : Nat) : (s.stopCheck why p).TablesWf := (h.setSign _).endReception _ _ _

theorem joinCheckPage (ups : List Upset) : (s.joinCheckPage ups).TablesWf := by
  unfold State.joinCheckPage
  split
  · next n _ st rest _ _ =>
    have hfed := h.pageSigned ups st.page (Machine.scanPage (fun _ => false) st.page (s.strike ups)).2.corrected n st
      (Machine.scanPage (fun _ => false) st.page (s.strike ups)).2.values
    exact ite (ite (ite hfed.finishCheck hfed) ((((h.strike ups).scanPage _ _).handOn _ _).stopCheck _ _))
      (h.stopCheck _ _)
  · exact h

theorem settle : s.settle.TablesWf := by
  have hdone := h.beginClosePass.restoresTake.sourceFault.passUnset.nextProgram.passTest.sendFinal.beginCheck
  exact ite (hdone.setQueue _).startPreErase h

end Agreement

section Requests

variable (h : s.TablesWf)
include h

/-! ### Answers, and the service of a read (R9 to R13, R19) -/

theorem answer (k : ReqKind) (tag : Byte) (st : Status) (b : ReplyBody) : (s.answer k tag st b).TablesWf := h

theorem refuse (k : ReqKind) (tag : Byte) (st : Status) : (s.refuse k tag st).TablesWf := h

theorem postEntry (a : WriteArgs) : (s.postEntry a).TablesWf := h

theorem countHost : s.countHost.TablesWf := h

theorem countNonHost : s.countNonHost.TablesWf := h

theorem readFinding (a : Nat) (r : ReadRun) : (s.readFinding a r).1.TablesWf := by
  unfold State.readFinding
  extract_lets p o s1 s2 s3
  have h1 : s1.TablesWf := ((h.offerSuspect _ _).makeSuspect _).raise _ _
  have h2 : s2.TablesWf := ite (h1.raise _ _) h1
  exact ite (h2.offerRestore _) h2

theorem serveCell (a : Nat) (r : ReadRun) : (s.serveCell a r).1.TablesWf := by
  unfold State.serveCell
  extract_lets p _ r1
  split
  · exact h
  · split_ifs
    · exact h
    · split
      · exact h
      · exact h.writeCell _ _
      · exact h.readFinding _ _

omit h in
theorem serveCells (cells : List Nat) (h : s.TablesWf) (r : ReadRun) : (serveCells cells (s, r)).1.TablesWf := by
  induction cells generalizing s r with
  | nil => exact h
  | cons a cells ih => exact ih (h.serveCell a r) _

theorem readFaults (k : ReqKind) (c : Half) (r : ReadRun) : (s.readFaults k c r).TablesWf := by
  unfold State.readFaults
  extract_lets s1
  have h1 : s1.TablesWf := h.raiseCorrected _
  split
  · exact h1
  · exact h1.placeFrame _

theorem setJob (j : Option Job) : (s.setJob j).TablesWf := h

theorem serveRead (tag : Byte) (k : ReqKind) (start count wrap : Nat) (c : Half) (ups : List Upset) :
    (s.serveRead tag k start count wrap c ups).TablesWf :=
  ((((h.countHost.strike ups).setJob none).serveCells _ _).readFaults _ _ _).setLink _

theorem serveExchange (tag : Byte) (a : WriteArgs) (c : Half) (ups : List Upset) :
    (s.serveExchange tag a c ups).TablesWf :=
  ((((h.countHost.strike ups).setJob none).serveCell _ _).readFaults _ _ _).postEntry a

theorem serveDeferred : s.serveDeferred.TablesWf := by
  unfold State.serveDeferred
  split
  · exact ite (h.eventOver.serveRead _ _ _ _ _ _ _) h
  · exact ite (h.eventOver.serveExchange _ _ _ _) h
  · exact h

theorem heldExchange (ups : List Upset) : (s.heldExchange ups).TablesWf := by
  unfold State.heldExchange
  split
  · exact h.serveExchange _ _ _ _
  · exact h

/-! ### READ, WRITE, EXCHANGE and FILL -/

theorem startRead (tag : Byte) (k : ReqKind) (a : ReadAsk) (ups : List Upset) : (s.startRead tag k a ups).TablesWf :=
  ite (h.serveRead _ _ _ _ _ _ _) h

theorem onRead (r : Request) (ups : List Upset) : (s.onRead r ups).TablesWf := by
  unfold State.onRead
  split
  · exact h
  · exact h.startRead _ _ _ _

theorem onReadOn (r : Request) (ups : List Upset) : (s.onReadOn r ups).TablesWf := by
  unfold State.onReadOn
  split
  · exact h
  · exact h.startRead _ _ _ _

theorem onWrite (r : Request) : (s.onWrite r).TablesWf := by
  unfold State.onWrite
  extract_lets s1
  split
  · exact h
  · split <;> exact h

theorem setCursor (c : Option Cursor) : (s.setCursor c).TablesWf := h

theorem onExchange (r : Request) (ups : List Upset) : (s.onExchange r ups).TablesWf := by
  unfold State.onExchange
  extract_lets s1
  split
  · exact h
  · split
    · exact h
    · exact ite h (ite ((h.setCursor _).serveExchange _ _ _ _) h)

theorem onFill (r : Request) : (s.onFill r).TablesWf := by
  unfold State.onFill
  extract_lets s1
  split
  · exact h
  · refine ite h (ite h ?_)
    split
    · exact h
    · exact ite h (ite h (ite h h))

theorem fillGrant (tag : Byte) (v : Word) (pages : List Nat) (p : Nat) (rest : List Nat) :
    (s.fillGrant tag v pages p rest).TablesWf := by
  unfold State.fillGrant
  extract_lets s1 s2 s3 s4
  have h3 : s3.TablesWf := ((h.writeRun _ _).clearSuspects _).mapPage _ _
  have h4 : s4.TablesWf := ite (h3.setJournal _) h3
  exact ite ((h4.setJob _).answer _ _ _ _) (h4.setJob _)

theorem fillNext : s.fillNext.TablesWf := by
  unfold State.fillNext
  split
  · exact h.countHost.fillGrant _ _ _ _ _
  · exact h

/-! ### The commissioning unit (R163 to R165) -/

/-- Pages that the table in use leaves unmapped leave the page state table (R8). -/
theorem dropUnmapped : s.dropUnmapped.TablesWf := h.setPages (tabWf_filter _ h.2)

theorem putInUse (x : CommRecord) : (s.putInUse x).TablesWf := by
  unfold State.putInUse
  extract_lets s1 _ s2 s3 s4 s5 s6
  have h1 : s1.TablesWf := ite h.abandonCheckpoint h
  have h3 : s3.TablesWf := (h1.setComm _).dropUnmapped
  exact ((((h3.setPatrol _).setJournal _).setLane _).setFaults _).moveLane _

theorem onApply (r : Request) : (s.onApply r).TablesWf := by
  refine ite h (ite h ?_)
  split
  · exact h
  · exact (h.putInUse _).refuse _ _ _

theorem onConfigure (r : Request) : (s.onConfigure r).TablesWf :=
  ite h (ite h (((ite (h.endReception _ _ _) h).moveLane _).refuse _ _ _))

theorem onWriteCommissioning (r : Request) : (s.onWriteCommissioning r).TablesWf := by
  refine ite h (ite h ?_)
  split
  · exact h
  · exact (h.setJob _).ask _

theorem onLock (r : Request) : (s.onLock r).TablesWf := by
  refine ite h (ite h ?_)
  split
  · exact h
  · exact (h.setJob _).ask _

/-! ### Closes, the lane state, checkpoints, restores and joins -/

theorem acceptClose (n : Half) (wc : Bool) : (s.acceptClose n wc).TablesWf := (((h.setFaults _).setQueue _).setLane _).clearHold

theorem onClose (r : Request) : (s.onClose r).TablesWf := by
  unfold State.onClose
  split
  · exact h
  · split
    · exact h
    · exact (h.acceptClose _ _).refuse _ _ _

theorem onCycleRecord (r : Request) : (s.onCycleRecord r).TablesWf := by
  unfold State.onCycleRecord
  split
  · exact h
  · split <;> exact h

theorem onEnter (r : Request) : (s.onEnter r).TablesWf := by
  refine ite h (ite h (ite h (ite h ?_)))
  split
  · exact h
  · split
    · exact h
    · exact ((h.setLane _).setJob _).handBoth _

theorem hostAborts : s.hostAborts.TablesWf := h.endReception _ _ _

theorem onWithdraw (r : Request) : (s.onWithdraw r).TablesWf :=
  ite ((h.moveLane _).refuse _ _ _) (ite (h.hostAborts.refuse _ _ _) (ite (h.hostAborts.refuse _ _ _) h))

theorem onRestart (r : Request) : (s.onRestart r).TablesWf := by
  unfold State.onRestart
  split
  · exact (h.moveLane _).refuse _ _ _
  · exact (h.moveLane _).refuse _ _ _
  · exact ((ite h.hostAborts h).moveLane _).refuse _ _ _
  · exact h.hostAborts.refuse _ _ _
  · exact h
  · exact h
  · exact h

theorem onCancel (r : Request) : (s.onCancel r).TablesWf := ite (h.abandonCheckpoint.refuse _ _ _) h

theorem onRestorePage (r : Request) : (s.onRestorePage r).TablesWf := by
  unfold State.onRestorePage
  split
  · exact h
  · split
    · exact h
    · exact ite h (ite h h)

omit h in
theorem beginRestores (ps : List Nat) (h : s.TablesWf) : (beginRestores ps s).TablesWf := by
  induction ps generalizing s with
  | nil => exact h
  | cons p ps ih => exact ih (h.beginRestore p)

theorem onRestoreImage (r : Request) : (s.onRestoreImage r).TablesWf := by
  refine ite h ?_
  split
  · exact h
  · exact ite h ((((h.beginRestores _).setRest _).imageGoesOn _).answer _ _ _ _)

theorem onJoin (r : Request) : (s.onJoin r).TablesWf := by
  unfold State.onJoin
  split
  · exact h
  · split
    · exact h
    · exact (((h.setXfer _).setLane _).hand _ _).refuse _ _ _

theorem onReleaseFault (r : Request) : (s.onReleaseFault r).TablesWf := by
  unfold State.onReleaseFault
  split <;> exact h

theorem onSetAlertMask (r : Request) : (s.onSetAlertMask r).TablesWf := by
  unfold State.onSetAlertMask
  split <;> exact h

/-! ### The host link interface, and whole events -/

/-- Every request keeps both tables; what is only answered leaves them alone. -/
theorem dispatch (k : ReqKind) (r : Request) (ups : List Upset) : (s.dispatch k r ups).TablesWf := by
  cases k with
  | read => exact h.onRead r ups
  | readOn => exact h.onReadOn r ups
  | write => exact h.onWrite r
  | exchange => exact h.onExchange r ups
  | fill => exact h.onFill r
  | close => exact h.onClose r
  | cycleRecord => exact h.onCycleRecord r
  | enter => exact h.onEnter r
  | withdraw => exact h.onWithdraw r
  | restart => exact h.onRestart r
  | cancelCheckpoint => exact h.onCancel r
  | restorePage => exact h.onRestorePage r
  | restoreImage => exact h.onRestoreImage r
  | join => exact h.onJoin r
  | releaseFault => exact h.onReleaseFault r
  | setAlertMask => exact h.onSetAlertMask r
  | writeCommissioning => exact h.onWriteCommissioning r
  | lockCommissioning => exact h.onLock r
  | apply => exact h.onApply r
  | configure => exact h.onConfigure r
  | checkpointStatus | faultFrame | faultSets | clearAccrued | status | readCommissioning => exact h

theorem handleByte (kind : Byte) (r : Request) (ups : List Upset) : (s.handleByte kind r ups).TablesWf := by
  unfold State.handleByte
  split
  · unfold State.handleRequest
    split
    · exact h
    · exact h.dispatch _ _ _
  · exact h

theorem takeByte (kind : Byte) (r : Request) (ups : List Upset) : (s.takeByte kind r ups).TablesWf := by
  refine ite h ?_
  split
  · exact (h.setLink _).handleByte _ _ _
  · split <;> exact h

theorem takeSecond : s.takeSecond.TablesWf := by
  unfold State.takeSecond
  split
  · exact (h.setLink _).handleByte _ _ _
  · exact h

theorem afterwards : s.afterwards.TablesWf := by
  unfold State.afterwards
  extract_lets s1
  have h1 : s1.TablesWf := by
    change State.TablesWf (match s.link.job with | some _ => _ | none => _)
    split
    · exact h.serveDeferred.settle
    · exact h
  split
  · exact h1.frameOwed.takeSecond.settle
  · exact h1

omit h in
/-- An event keeps the tables if what it begins with does. -/
theorem event {f : State → State} (hf : (f s).TablesWf) : (s.event f).TablesWf := hf.settle.afterwards.closeEvent

end Requests

end State.TablesWf
end Sys2Proof.Machine
end

section
/-! Frames from a peer, the ends of array operations, grants and resets keep the canonical form of the tables, and so does every
command. -/

namespace Sys2Proof.Machine
namespace State.TablesWf

variable {s : State}

section Frames

variable (h : s.TablesWf)
include h

/-! ### Frames taken from a peer (R69, R73 to R75, R126 to R138) -/

theorem answerDamaged (code : Byte) (f : RxFrame) : (s.answerDamaged code f).TablesWf := by
  unfold State.answerDamaged
  split
  · exact h
  · exact ite ((h.setXfer _).handPartner _) h

theorem discardFrame (n : Nat) (code : Byte) (f : RxFrame) : (s.discardFrame n code f).TablesWf := by
  unfold State.discardFrame
  split
  · exact h
  · exact (h.answerDamaged _ _).raise _ _
  · exact h.raise _ _
  · exact (h.raise _ _).placeFrame _

theorem watchQuery (st : Option LaneState) : (s.watchQuery st).TablesWf := ite h h

theorem mapPeer (p : PortId) (f : Peer → Peer) : (s.mapPeer p f).TablesWf := h

theorem sortAnnouncement (p : PortId) (a : Announcement) : (s.sortAnnouncement p a).TablesWf := by
  refine ite h (ite h (ite h ?_))
  split
  · exact (h.setLane _).raise _ _
  · exact (h.raise _ _).placeFrame _

theorem peerGave (p : PortId) (byState : Bool) (st : Option LaneState) : (s.peerGave p byState st).TablesWf := by
  unfold State.peerGave
  extract_lets s1
  have h1 : s1.TablesWf := ite (h.activePeerSeen _) h.testVote
  exact ite (h1.endReception _ _ _) h1

theorem takeAnnounce (f : RxFrame) : (s.takeAnnounce f).TablesWf := by
  unfold State.takeAnnounce
  split
  · exact h
  · exact (((h.mapPeer _ _).watchQuery _).sortAnnouncement _ _).peerGave _ _ _

theorem receiverGave (p : PortId) (st : Option LaneState) : (s.receiverGave p st).TablesWf :=
  ite (ite h (ite (h.endDonation _ _ _ _) h)) h

theorem takeState (f : RxFrame) : (s.takeState f).TablesWf := by
  unfold State.takeState
  split
  · exact h
  · exact (((h.mapPeer _ _).watchQuery _).peerGave _ _ _).receiverGave _ _

theorem takeJoinAsk (f : RxFrame) : (s.takeJoinAsk f).TablesWf :=
  ite (h.hand _ _) (ite (h.hand _ _) (ite (h.hand _ _) (((h.setXfer _).mapPeer _ _).hand _ _)))

theorem takeJoinGrant (f : RxFrame) : (s.takeJoinGrant f).TablesWf :=
  ite (ite (h.endReception _ _ _) (ite (h.endReception _ _ _) ((h.setXfer _).moveLane _))) h

theorem takeJoinRefuse (f : RxFrame) : (s.takeJoinRefuse f).TablesWf := ite (h.endReception _ _ _) h

theorem takePage (f : RxFrame) : (s.takePage f).TablesWf := by
  unfold State.takePage
  split
  · exact h
  · exact ite (ite (h.endReception _ _ _) (ite (h.handPartner _) h)) h

theorem takePageAgain (f : RxFrame) : (s.takePageAgain f).TablesWf :=
  ite (ite ((h.setXfer _).endDonation _ _ _ _) (ite h h)) h

theorem takeJoinFinal (f : RxFrame) : (s.takeJoinFinal f).TablesWf := ite h h

theorem takeJoinAbort (f : RxFrame) : (s.takeJoinAbort f).TablesWf := by
  refine ite ?_ h
  split
  · exact h.endReception _ _ _
  · exact h.endDonation _ _ _ _
  · exact h

theorem brokenFrame (p : PortId) (taking : Bool) : (s.brokenFrame p taking).TablesWf := by
  unfold State.brokenFrame
  extract_lets s1
  split
  · exact h
  · exact (h.setPorts _).raise _ _

/-- A frame that a port has received, if taking it keeps the tables. -/
theorem receive (code : Byte) (f : RxFrame) {take : State → State}
    (ht : ∀ {u : State}, u.TablesWf → (take u).TablesWf) : (s.receive code f take).TablesWf := by
  unfold State.receive
  extract_lets s1
  split
  · exact h
  · exact ite (ht (h.setPorts _)) ((h.setPorts _).discardFrame _ _ _)

/-! ### The ends of programs, erases and reads, and start-up -/

theorem endWriteJob (fault : Bool) : (s.endWriteJob fault).TablesWf := by
  unfold State.endWriteJob
  split
  · exact ite h h
  · exact h

theorem eraseDone (left : Option CommLeft) : (s.eraseDone left).TablesWf := by
  unfold State.eraseDone
  extract_lets l _ s1
  have h1 : s1.TablesWf := h
  refine ite ?_ ((h1.setComm _).opEnded.endWriteJob _)
  split
  · exact h1.opEndedAsking _
  · exact h1.opEnded

theorem programDone (r : CommRecord) (left : Option RecordPlace) : (s.programDone r left).TablesWf :=
  ((h.setArray _).setComm _).opEnded.endWriteJob _

theorem lockDone (left : Option (Field Unit)) : (s.lockDone left).TablesWf := by
  unfold State.lockDone
  extract_lets x _ s1 _ s2 s3 s4
  have h1 : s1.TablesWf := h
  have h2 : s2.TablesWf := ite h1 h1
  have h3 : s3.TablesWf := h2.opEnded
  split
  · exact ite h3 h3
  · exact h3

theorem beginFieldsDone (slot : SlotId) (f : BeginFields) (left : Option (Field BeginFields)) :
    (s.beginFieldsDone slot f left).TablesWf := by
  unfold State.beginFieldsDone
  extract_lets x _ s1
  have h1 : s1.TablesWf := (h.setArray _).opEnded
  exact ite (ite (h1.failCheckpoint _ _) h1) h1

theorem pageProgramDone (slot : SlotId) (p : Nat) (cells : List Word) (left : Option Place) :
    (s.pageProgramDone slot p cells left).TablesWf := by
  unfold State.pageProgramDone
  extract_lets x s1
  have h1 : s1.TablesWf := (h.setArray _).opEnded
  exact ite (ite (h1.failCheckpoint _ _) h1) h1

theorem completionDone (slot : SlotId) (left : Option (Field Unit)) : (s.completionDone slot left).TablesWf := by
  unfold State.completionDone
  extract_lets x _ s1
  have h1 : s1.TablesWf := (h.setArray _).opEnded
  exact ite (ite (h1.failCheckpoint _ _) h1.completeCheckpoint) h1

theorem abandonDone (slot : SlotId) (left : Option (Field Unit)) : (s.abandonDone slot left).TablesWf := by
  unfold State.abandonDone
  extract_lets x _ s1
  have h1 : s1.TablesWf := (h.setArray _).opEnded
  exact ite (h1.ask _) h1

theorem eraseFails (slot : SlotId) : (s.eraseFails slot).TablesWf := ((h.setCkpt _).raise _ _).placeFrame _

theorem sectorDone (slot : SlotId) (n : Nat) (left : Option SectorLeft) : (s.sectorDone slot n left).TablesWf := by
  unfold State.sectorDone
  extract_lets x s1
  have h1 : s1.TablesWf := (h.setArray _).opEnded
  exact ite h1 (ite (h1.eraseFails _) (ite ((h1.setCkpt _).ask _) h1))

theorem losePlace (slot : SlotId) (p : Nat) (lost : Bool) : (s.losePlace slot p lost).TablesWf := by
  unfold State.losePlace
  split <;> exact h

theorem pageReadDone (slot : SlotId) (p : Nat) (lost : Bool) : (s.pageReadDone slot p lost).TablesWf := by
  unfold State.pageReadDone
  extract_lets s1
  have h1 : s1.TablesWf := (h.losePlace slot p lost).opEnded
  split
  · refine ite ?_ h1
    split
    · exact h1
    · exact h1.failPageRestore _ _ _
  · exact h1

theorem imageReadDone (slot : SlotId) (p : Nat) (lost : Bool) : (s.imageReadDone slot p lost).TablesWf := by
  unfold State.imageReadDone
  extract_lets s1
  have h1 : s1.TablesWf := (h.losePlace slot p lost).opEnded
  split
  · split
    · refine ite (ite (h1.imageGoesOn _) ?_) h1
      split
      · exact h1
      · exact h1.imageFails _ _ _
    · exact h1
  · exact h1

theorem completeStartUp (lost : List ArrayArea) : (s.completeStartUp lost).TablesWf := by
  have hup : (s.startedUp (lost.foldl loseArea s.array)).TablesWf := h
  rw [completeStartUp_eq]
  exact hup.handBoth _

/-! ### The other grants -/

theorem pageWriteNext : s.pageWriteNext.TablesWf := by
  unfold State.pageWriteNext
  split
  · exact h.countNonHost.pageRestoreGrant _ _ _ _
  · exact h

theorem imageWriteNext : s.imageWriteNext.TablesWf := by
  unfold State.imageWriteNext
  split
  · split
    · exact h.countNonHost.imageRestoreGrant _ _
    · exact h
  · exact h

theorem transferInNext : s.transferInNext.TablesWf := by
  unfold State.transferInNext
  split
  · exact h
  · exact h.countNonHost.transferInGrant _ _

theorem countRound (passed : Bool) : (s.countRound passed).TablesWf := ite h h

theorem advanceCursor (p : Nat) : (s.advanceCursor p).TablesWf := by
  unfold State.advanceCursor
  split <;> exact h

theorem visitGrant (ups : List Upset) : (s.visitGrant ups).TablesWf := by
  unfold State.visitGrant
  split
  · exact h
  · split
    · exact h
    · exact ((((((h.countRound _).strike ups).scanPage _ _).handOn _ _).advanceCursor _).setPatrol _)

theorem decay : s.decay.TablesWf := ite h h

/-! ### A reset (R160) -/

/-- The part as a lane reset finds it, the writes of the grant in progress made as far as they had been (R1, R20). -/
theorem cutShort (cut : Cut) (ws : List (Nat × Word)) :
    (Machine.tornWrites cut.torn ws ((s.strike cut.ups).readBegun cut.read)).TablesWf := by
  obtain ⟨l, hl⟩ := readBegun_eq_setLink (s.strike cut.ups) cut.read
  rw [hl]
  exact ((h.strike cut.ups).setLink l).tornWrites _ _

end Frames

/-- A part without power, or in reset, lists no cell and no page. -/
theorem unpowered (s : State) : s.unpowered.TablesWf := ⟨rfl, rfl⟩

end State.TablesWf

/-! ### Every command -/

/-- An outcome whose next state has both tables in their canonical form. -/
def NextTablesWf (o : Host.Outcome State Fault Refusal) : Prop := ∀ t, o = .next t → t.TablesWf

namespace NextTablesWf

theorem next {t : State} (h : t.TablesWf) : NextTablesWf (.next t) := by
  intro u hu
  cases hu
  exact h

theorem ite {c : Prop} [Decidable c] {a b : Host.Outcome State Fault Refusal} (ha : NextTablesWf a)
    (hb : NextTablesWf b) : NextTablesWf (if c then a else b) := by
  split_ifs <;> assumption

variable {s : State} (h : s.TablesWf)
include h

/-- A request whose event reaches other blocks. -/
theorem request (k : ReqKind) (r : Request) (ups : List Upset) :
    NextTablesWf (.next (s.event (fun t => t.takeRequest k r ups))) := next (.event (h.takeByte _ _ _))

/-- A request whose event stays within its block. -/
theorem plainRequest (k : ReqKind) (r : Request) (ups : List Upset) :
    NextTablesWf (.next (s.plainEvent (fun t => t.takeRequest k r ups))) := next (h.takeByte _ _ _).closeEvent

/-- An event that happens only where its row offers it. -/
theorem offered {c : Prop} [Decidable c] {f : State → State} (hf : (f s).TablesWf) :
    NextTablesWf (if c then .next (s.event f) else .next s) := ite (next (.event hf)) (next h)

/-- A frame at a port, if taking it keeps the tables. -/
theorem frame (code : Byte) (f : RxFrame) {take : State → State}
    (ht : ∀ {u : State}, u.TablesWf → (take u).TablesWf) : NextTablesWf (.next (s.frameEvent code f take)) :=
  next (.ite (.event (h.receive code f ht)) h)

theorem powerOn : NextTablesWf (execPowerOn s) :=
  ite (next h) (next (.ite (State.TablesWf.unpowered s) (State.TablesWf.unpowered s)))

/-- A lane reset keeps the image with what had been written of it, and forgets the pages (R160). -/
theorem laneResetAssert (cut : Cut) : NextTablesWf (execLaneResetAssert cut s) := by
  have hcut := h.cutShort cut ((s.strike cut.ups).readBegun cut.read).grantWrites
  exact ite (next h) (next ((State.TablesWf.unpowered s).setImage (State.TablesWf.ite hcut h).1))

theorem queryWindowEnd : NextTablesWf (execQueryWindowEnd s) := by
  unfold execQueryWindowEnd
  split
  · exact next (.event (.ite h ((((h.setJob none).setLane _).moveLane _).refuse _ _ _)))
  · exact next h

/-! ### The ends of the controller's operations, of a frame sent and of a timer -/

theorem pageRestoreReadDone (lost : Bool) : NextTablesWf (execPageRestoreReadDone lost s) := by
  unfold execPageRestoreReadDone
  split
  · exact next (.event (h.pageReadDone _ _ lost))
  · exact next h

theorem imageRestoreReadDone (lost : Bool) : NextTablesWf (execImageRestoreReadDone lost s) := by
  unfold execImageRestoreReadDone
  split
  · exact next (.event (h.imageReadDone _ _ lost))
  · exact next h

theorem commissioningEraseDone (left : Option CommLeft) : NextTablesWf (execCommissioningEraseDone left s) := by
  unfold execCommissioningEraseDone
  split
  · exact next (.event (h.eraseDone left))
  · exact next h

theorem commissioningProgramDone (left : Option RecordPlace) : NextTablesWf (execCommissioningProgramDone left s) := by
  unfold execCommissioningProgramDone
  split
  · exact next (.event (h.programDone _ left))
  · exact next h

theorem lockMarkProgrammed (left : Option (Field Unit)) : NextTablesWf (execLockMarkProgrammed left s) := by
  unfold execLockMarkProgrammed
  split
  · exact next (.event (h.lockDone left))
  · exact next h

theorem beginFieldsProgrammed (left : Option (Field BeginFields)) : NextTablesWf (execBeginFieldsProgrammed left s) := by
  unfold execBeginFieldsProgrammed
  split
  · exact next (.event (h.beginFieldsDone _ _ left))
  · exact next h

theorem checkpointPageProgrammed (left : Option Place) : NextTablesWf (execCheckpointPageProgrammed left s) := by
  unfold execCheckpointPageProgrammed
  split
  · exact next (.event (h.pageProgramDone _ _ _ left))
  · exact next h

theorem completionMarkProgrammed (left : Option (Field Unit)) : NextTablesWf (execCompletionMarkProgrammed left s) := by
  unfold execCompletionMarkProgrammed
  split
  · exact next (.event (h.completionDone _ left))
  · exact next h

theorem abandonMarkProgrammed (left : Option (Field Unit)) : NextTablesWf (execAbandonMarkProgrammed left s) := by
  unfold execAbandonMarkProgrammed
  split
  · exact next (.event (h.abandonDone _ left))
  · exact next h

theorem preEraseSectorErased (left : Option SectorLeft) : NextTablesWf (execPreEraseSectorErased left s) := by
  unfold execPreEraseSectorErased
  split
  · exact next (.event (h.sectorDone _ _ left))
  · exact next h

theorem patrolTimerExpiry : NextTablesWf (execPatrolTimerExpiry s) := by
  unfold execPatrolTimerExpiry
  split <;> exact next h

theorem decayTimerExpiry : NextTablesWf (execDecayTimerExpiry s) := by
  unfold execDecayTimerExpiry
  split
  · exact next h
  · exact next h.decay.closeEvent

theorem portFrameSent (p : PortId) : NextTablesWf (execPortFrameSent p s) := by
  unfold execPortFrameSent
  split <;> exact next h

end NextTablesWf

/-- Every command keeps both tables: a request by what its handler does, a grant, a frame and the end of an operation by the
lemma about it, and a command that its row does not offer by leaving the state as it is. -/
theorem exec_tablesWf {s : State} (h : s.TablesWf) (i : Instr) : NextTablesWf (exec i s) := by
  have hgrant := h.countNonHost
  cases i with
  | powerOn => exact .powerOn h
  | powerLoss cut => exact .ite (.next h) (.next (.unpowered s))
  | laneResetAssert cut => exact .laneResetAssert h cut
  | startUpComplete lost => exact .offered h (h.completeStartUp lost)
  | unknownKind kind r => exact .ite (.next h) (.next (h.takeByte kind r []).closeEvent)
  | read r ups | readOn r ups | exchange r ups => exact .request h _ r ups
  | fill r | close r | enter r | withdraw r | restart r | cancelCheckpoint r | restorePage r | restoreImage r
  | writeCommissioning r | lockCommissioning r | apply r | configure r => exact .request h _ r _
  | write r | cycleRecord r | checkpointStatus r | join r | faultFrame r | releaseFault r | faultSets r | clearAccrued r
  | setAlertMask r | status r | readCommissioning r => exact .plainRequest h _ r _
  | laneResetRelease => exact .ite (.next h) (.next h)
  | hcsFalling => exact .ite (.next h) (.ite (.next h) (.next h))
  | hcsRising | permitHalfPeriod | replySentWhole => exact .ite (.next h) (.next h)
  | drainAge => exact .next h
  | heldExchangeRead ups => exact .offered h (h.heldExchange ups)
  | fillPage => exact .offered h h.fillNext
  | drain => exact .offered h h.countHost.drainHead
  | signature ups => exact .offered h (hgrant.signatureGrant ups)
  | queryWindowEnd => exact .queryWindowEnd h
  | pageRestoreReadDone lost => exact .pageRestoreReadDone h lost
  | pageRestoreWrite => exact .offered h h.pageWriteNext
  | imageRestoreReadDone lost => exact .imageRestoreReadDone h lost
  | imageRestoreWrite => exact .offered h h.imageWriteNext
  | commissioningEraseDone left => exact .commissioningEraseDone h left
  | commissioningProgramDone left => exact .commissioningProgramDone h left
  | lockMarkProgrammed left => exact .lockMarkProgrammed h left
  | patrolTimerExpiry => exact .patrolTimerExpiry h
  | patrolVisit ups => exact .offered h (hgrant.visitGrant ups)
  | decayTimerExpiry => exact .decayTimerExpiry h
  | capture ups => exact .offered h (hgrant.captureGrant ups)
  | beginFieldsProgrammed left => exact .beginFieldsProgrammed h left
  | checkpointPageProgrammed left => exact .checkpointPageProgrammed h left
  | completionMarkProgrammed left => exact .completionMarkProgrammed h left
  | abandonMarkProgrammed left => exact .abandonMarkProgrammed h left
  | preEraseSectorErased left => exact .preEraseSectorErased h left
  | transferOut ups => exact .offered h (hgrant.transferOutGrant ups)
  | transferIn => exact .offered h h.transferInNext
  | joinCheckGrant ups => exact .offered h (hgrant.joinCheckPage ups)
  | joinIdleTimeout => exact .offered h (h.endReception _ _ _)
  | voteWindowExpiry => exact .offered h h.expireVote
  | announce f => exact .frame h _ f (fun hu => hu.takeAnnounce f)
  | query f => exact .frame h _ f (fun hu => hu.hand _ _)
  | state f => exact .frame h _ f (fun hu => hu.takeState f)
  | joinAsk f => exact .frame h _ f (fun hu => hu.takeJoinAsk f)
  | joinGrant f => exact .frame h _ f (fun hu => hu.takeJoinGrant f)
  | joinRefuse f => exact .frame h _ f (fun hu => hu.takeJoinRefuse f)
  | page f => exact .frame h _ f (fun hu => hu.takePage f)
  | pageAgain f => exact .frame h _ f (fun hu => hu.takePageAgain f)
  | joinFinal f => exact .frame h _ f (fun hu => hu.takeJoinFinal f)
  | joinAbort f => exact .frame h _ f (fun hu => hu.takeJoinAbort f)
  | laneFrameFaulty kind f => exact .frame h _ f (fun hu => hu)
  | laneCharTimeout p => exact .offered h (h.brokenFrame p false)
  | portFrameSent p => exact .portFrameSent h p
  | markerInsideFrame p => exact .offered h (h.brokenFrame p true)

/-- Settles O18: a step runs the command at the front, and every command keeps both tables. -/
theorem everyStepKeepsTheTables : Obligations.EveryStepKeepsTheTables := by
  intro s t himage hpages hstep
  have h : s.TablesWf := ⟨himage, hpages⟩
  cases hpending : s.pending with
  | nil =>
    rw [step_of_pending_nil hpending] at hstep
    exact NextTablesWf.next h t hstep
  | cons c rest =>
    rw [step_of_pending_cons hpending] at hstep
    exact exec_tablesWf (h.setPending rest) c t hstep

end Sys2Proof.Machine
end

section
/-! Lane frames as a peer sends them and a port takes them: their lengths, and their bodies field by field (R168). -/

namespace Sys2Proof.Machine

section LaneWire

theorem laneStateOfByte_code (x : LaneState) : laneStateOfByte x.code = some x := by cases x <;> rfl

/-- A reason of the table reads as it was sent; a code outside the table names itself. -/
theorem Reason.ofCode_code {why : Reason} (h : ∀ b, why ≠ .other b) : Reason.ofCode why.code = why := by
  cases why with
  | other b => exact absurd rfl (h b)
  | _ => rfl

theorem length_halfBytes (x : Half) : (halfBytes x).length = 2 := rfl

theorem length_optWord (x : Option Word) : (optWord x).length = 4 := by cases x <;> rfl

theorem le_of_laneBodyLength {k : Byte} {m : Nat} (h : laneBodyLength k = some m) : m ≤ 258 := by
  unfold laneBodyLength at h
  split at h <;> cases h <;> decide

section Lengths

variable {f : LaneFrame} (h : ∀ q m cells, f = .page q m cells → cells.length = 64)
include h

/-- A body has the length that its kind requires; a PAGE carries the 64 cells of its page (R168). -/
theorem laneBodyLength_code : laneBodyLength f.code = some f.body.length := by
  cases f with
  | page q m cells =>
    have hcells : (bytesOfWords cells).length = 256 := by rw [length_bytesOfWords, h q m cells rfl]
    simp only [LaneFrame.body, List.cons_append, List.nil_append, List.length_cons, hcells]
    rfl
  | announce c st sig ab pr d =>
    simp only [LaneFrame.body, halfOf, List.length_append, length_halfBytes, length_optWord]
    rfl
  | _ => rfl

/-- The part that a port faces sends frames that pass the port's tests (R68, R69). -/
theorem verdict_received (n : Nat) (p : PortId) :
    verdict n f.code (f.received p (expectedLane n p)) = .taken := by
  simp only [verdict, LaneFrame.received, laneBodyLength_code h, ne_eq, not_true_eq_false, if_false]

end Lengths

/-- A number of two bytes reads as it was sent. -/
theorem toNat_half_halfOf {m : Nat} (h : m < 65536) :
    (half ((BitVec.ofNat 16 m).extractLsb' 8 8) ((BitVec.ofNat 16 m).extractLsb' 0 8)).toNat = m := by
  rw [half_halfBytes, BitVec.toNat_ofNat]
  exact Nat.mod_eq_of_lt h

/-- A signature's four bytes read as it was sent where the flag beside them says that there is one (R168). -/
theorem announceArgs_fields (c : Half) (st fl : Byte) (sig : Option Word) {pr : Nat} (h : pr < 65536)
    (hsig : fl.getLsbD 0 = sig.isSome) :
    announceArgs (halfBytes c ++ [st, fl] ++ optWord sig ++ halfOf pr) =
      some { note := { cycle := c, state := laneStateOfByte st, signature := sig, abstain := fl.getLsbD 1 }, p := pr,
             donating := fl.getLsbD 2 } := by
  have hread : ∀ g : Word, announceArgs (halfBytes c ++ [st, fl] ++ wordBytes g ++ halfOf pr) =
      some { note := { cycle := c, state := laneStateOfByte st, signature := if fl.getLsbD 0 then some g else none,
                       abstain := fl.getLsbD 1 }, p := pr, donating := fl.getLsbD 2 } := fun g => by
    simp only [halfBytes, wordBytes, halfOf, List.cons_append, List.nil_append, announceArgs, toNat_half_halfOf h,
      word_wordBytes]
    rw [half_halfBytes]
  cases sig with
  | none => exact (hread 0).trans (by rw [hsig]; rfl)
  | some g => exact (hread g).trans (by rw [hsig]; rfl)

/-- The three flags of an ANNOUNCE stand at bits of their own (R168). -/
theorem getLsbD_announceFlags (a b c : Bool) :
    (flag 0 a ||| flag 1 b ||| flag 2 c).getLsbD 0 = a ∧ (flag 0 a ||| flag 1 b ||| flag 2 c).getLsbD 1 = b ∧
      (flag 0 a ||| flag 1 b ||| flag 2 c).getLsbD 2 = c := by
  simp [-BitVec.getLsbD_eq_getElem, BitVec.getLsbD_or, getLsbD_flag]

/-- An ANNOUNCE reads as it was sent, with a signature or without one. -/
theorem announceArgs_body (c : Half) (st : LaneState) (sig : Option Word) (ab : Bool) {pr : Nat} (d : Bool)
    (h : pr < 65536) :
    announceArgs (LaneFrame.announce c st sig ab pr d).body =
      some { note := { cycle := c, state := some st, signature := sig, abstain := ab }, p := pr, donating := d } := by
  obtain ⟨hsig, hab, hd⟩ := getLsbD_announceFlags sig.isSome ab d
  rw [LaneFrame.body, announceArgs_fields _ _ _ _ h hsig, laneStateOfByte_code, hab, hd]

theorem stateArgs_body (st : LaneState) (c : Half) : stateArgs (LaneFrame.state st c).body = some (some st, c) := by
  simp only [LaneFrame.body, halfBytes, List.cons_append, List.nil_append, stateArgs, laneStateOfByte_code, half_halfBytes]

theorem grantArgs_body {m : Nat} (h : m < 65536) : grantArgs (LaneFrame.joinGrant m).body = some m := by
  simp only [LaneFrame.body, halfOf, halfBytes, grantArgs, toNat_half_halfOf h]

theorem pageArgs_body {q : Nat} (m : Nat) (cells : List Word) (h : q < 256) :
    pageArgs (LaneFrame.page q m cells).body = some (q, cells) := by
  simp only [LaneFrame.body, List.cons_append, List.nil_append, pageArgs, wordsOfBytes_bytesOfWords, toNat_byteOf h]

theorem finalArgs_body (c : Half) (g : Word) : finalArgs (LaneFrame.joinFinal c g).body = some (c, g) := by
  simp only [LaneFrame.body, halfBytes, wordBytes, List.cons_append, List.nil_append, finalArgs, half_halfBytes,
    word_wordBytes]

/-- A frame's bytes are its lane, kind, length and body, and the check of these (R168). -/
theorem bytes_fields {f : Outgoing} (h : ∀ q m cells, f.frame = .page q m cells → cells.length = 64) :
    ∃ b1 b0 c1 c0, f.bytes = byteOf f.lane :: f.frame.code :: b1 :: b0 :: f.frame.body ++ [c1, c0] ∧
      (half b1 b0).toNat = f.frame.body.length ∧
      half c1 c0 = frameCheck (byteOf f.lane :: f.frame.code :: b1 :: b0 :: f.frame.body) := by
  have hlen := le_of_laneBodyLength (laneBodyLength_code h)
  exact ⟨_, _, _, _, rfl, toNat_half_halfOf (by omega), half_halfBytes _⟩

end LaneWire

/-- Settles O20: a sent frame passes the tests by its length and its check, and each body reads field by field. -/
theorem laneFramesDecodeAsSent : Obligations.LaneFramesDecodeAsSent := fun n p =>
  ⟨fun _ hpage => verdict_received hpage n p, fun c st sig ab _ d => announceArgs_body c st sig ab d, stateArgs_body,
    fun _ => grantArgs_body, fun _ m cells => pageArgs_body m cells, finalArgs_body,
    fun _ hwhy => ⟨Reason.ofCode_code hwhy, Reason.ofCode_code hwhy⟩, fun _ => toNat_byteOf,
    fun _ => bytes_fields⟩

end Sys2Proof.Machine
end
